-- ==== Sys2Proof/Word.lean ====
section
/-! DEFINITION. The plain words OWSEQ works on, and the kinds of word a decoder is given (rule R80).
OWSEQ has no signed datum (rule R10), so every width here is an unsigned bit vector. Times are natural
numbers of nanoseconds (rules R11, R233). -/

namespace Sys2Proof

/-- One byte: STEP, a shift pattern, a captured byte, a host register. -/
abbrev Byte := BitVec 8

/-- A table key, `{OP, (OP = WRITE) ? RESULT : 0}` (rule R74). -/
abbrev Key := BitVec 3

/-- A register of the host program, holding one byte (rule R82). `t`, `t2` and `t3` are the
temporaries that the pseudo-instructions clobber (rule R83). -/
inductive Reg where
  | r (n : Fin 16)
  | t
  | t2
  | t3
deriving DecidableEq, Repr

/-- The four pseudo-instructions of rule R83. -/
inductive Pseudo where
  | wait
  | reset
  | wrbyte
  | rdbyte
deriving DecidableEq, Repr

/-- A word together with where it came from. Rule R80: a decoder knows a word's format by where it
came from, not from the word. -/
inductive Code where
  /-- CMD8: the byte of a host write to STEP (rule R70). -/
  | cmd (w : Byte)
  /-- STAT8: a host read of STEP into the host register `rd` (rules R71, R113). -/
  | stat (rd : Reg)
  /-- TDESC32: a step-table entry of ENGINE = TIMER (rule R72). -/
  | tdesc (w : BitVec 32)
  /-- SDESC16: a step-table entry of ENGINE = SHIFT_* (rule R73). -/
  | sdesc (w : BitVec 16)
  /-- A pseudo-instruction line of the host program (rule R83): it has no word of its own. -/
  | pseudo (p : Pseudo) (reg : Reg)
deriving DecidableEq, Repr

end Sys2Proof
end

