-- ==== Sys2Proof/Config.lean ====
section
/-! DEFINITION. The configuration of one OWSEQ instance (rules R2, R7, R8, R36) and the free values,
which the spec leaves open. The configuration is not state (rule R36): State carries it in a field
that no step writes, so that a statement over every state holds for every configuration. -/

namespace Sys2Proof

/-- The option ENGINE (rule R2), fixed when the instance is built. -/
inductive Engine where
  | timer
  | shiftIrq
  | shiftPoll
deriving DecidableEq, Repr

/-- The identity string of an instance (rule R3). -/
def Engine.identity : Engine → String
  | .timer => "OWSEQ-TIMER"
  | .shiftIrq => "OWSEQ-SHIFT_IRQ"
  | .shiftPoll => "OWSEQ-SHIFT_POLL"

/-- The two levels of the spec (rule R7). -/
inductive Level where
  /-- Level A: no time, each sample and captured byte a draw (rule R109). -/
  | untimed
  /-- Level B: every step at a time in nanoseconds, samples computed from the line (rule R53). -/
  | timed
deriving DecidableEq, Repr

/-- The configuration: ENGINE, TABLES and the open parameters L_MAX and OWSEQ_BASE (rules R8, R36),
and the level the model is read at. `tables` maps a table key to its descriptors, index 0 first. -/
structure Config where
  level  : Level
  engine : Engine
  tables : List (Key × List Code)
  /-- L_MAX, the bound on a handler latency, in nanoseconds. -/
  lMax   : Nat
  /-- OWSEQ_BASE, the host data address of STEP. -/
  base   : Nat
deriving DecidableEq, Repr

/-- FREE VALUE. The pull of unnamed devices on the line at a time (rule R54): any function. -/
opaque Config.freePull : Nat → Bool
/-- FREE VALUE. Level A's sample of the line (rule R109), by draw number. -/
opaque Config.freeSample : Nat → Bool
/-- FREE VALUE. Level A's captured byte (rule R109), by draw number. -/
opaque Config.freeByte : Nat → Byte
/-- FREE VALUE. A handler latency (rule R107) before it is bounded by L_MAX, by draw number. -/
opaque Config.freeLatency : Nat → Nat
/-- FREE VALUE. The host's time from one of its steps to its next, by draw number. -/
opaque Config.freeGap : Nat → Nat
/-- FREE VALUE. Whether the Host goes before a tick of the same instant (rule R59), by draw number. -/
opaque Config.freeTie : Nat → Bool

end Sys2Proof
end

