-- ==== Sys2Proof/Syntax.lean ====
section
/-! DEFINITION. The instructions: one constructor per row of spec/opcode_table.json (rule R81). -/

namespace Sys2Proof

/-- One constructor per row of the opcode map. The ignored bits of a command word (rule R78) are no
operands. A reserved descriptor keeps its other bits, so that a word is never mistaken for another. -/
inductive Instr where
  /-- ISSUE_RESET, CMD8 (rule R102). -/
  | issueReset
  /-- ISSUE_READ, CMD8 (rule R103). -/
  | issueRead
  /-- ISSUE_WRITE, CMD8, with the bit P to write (rule R104). -/
  | issueWrite (p : Bool)
  /-- ISSUE_RSVD, CMD8 (rule R111). -/
  | issueRsvd
  /-- POLL, a host read of STEP into `rd` (rule R113). -/
  | poll (rd : Reg)
  /-- T_HOLD, TDESC32 (rule R144). -/
  | tHold (delay : BitVec 16) (t : Bool)
  /-- T_DRIVE_LOW, TDESC32 (rule R140). -/
  | tDriveLow (delay : BitVec 16) (t : Bool)
  /-- T_RELEASE, TDESC32 (rule R141). -/
  | tRelease (delay : BitVec 16) (t : Bool)
  /-- T_SAMPLE_SET, TDESC32 (rule R142). -/
  | tSampleSet (delay : BitVec 16) (t : Bool)
  /-- T_SAMPLE_OR, TDESC32 (rule R143). -/
  | tSampleOr (delay : BitVec 16) (t : Bool)
  /-- T_RSVD5, TDESC32 with ACT = 0b101; `rest` is bits 31:3 (rule R79). -/
  | tRsvd5 (rest : BitVec 29)
  /-- T_RSVD6, TDESC32 with ACT = 0b110 or 0b111; `rest` is bits 31:3 and `b0` bit 0 (rule R79). -/
  | tRsvd6 (rest : BitVec 29) (b0 : Bool)
  /-- S_CAP_NONE, SDESC16 (rule R177). -/
  | sCapNone (pat : Byte) (t : Bool)
  /-- S_CAP_OR_LOW, SDESC16 (rule R176). -/
  | sCapOrLow (pat : Byte) (t : Bool)
  /-- S_CAP_BIT, SDESC16 (rule R175). -/
  | sCapBit (pat : Byte) (bitsel : BitVec 3) (t : Bool)
  /-- S_RSVD, SDESC16 with CAP = 0b11; `rest` is bits 15:10 and `pat` bits 7:0 (rule R79). -/
  | sRsvd (rest : BitVec 6) (pat : Byte)
  /-- `ow.wait rd`, pseudo-instruction WaitForReady (rule R114). -/
  | owWait (rd : Reg)
  /-- `ow.reset rd`, pseudo-instruction ResetAndDetectPresence (rule R202). -/
  | owReset (rd : Reg)
  /-- `ow.wrbyte rs`, pseudo-instruction WriteByte (rule R203). -/
  | owWrbyte (rs : Reg)
  /-- `ow.rdbyte rd`, pseudo-instruction ReadByte (rule R204). -/
  | owRdbyte (rd : Reg)
deriving DecidableEq, Repr

end Sys2Proof
end

