-- ==== Sys2Proof/WellFormed.lean ====
section
/-! DEFINITION. Which instructions are legal words of their format (rules R76, R77 and R79). The
conditions on a whole table configuration (rule R117) are in Machine/Legality.lean. -/

namespace Sys2Proof

/-- Rule R76: a descriptor with T = 0 has DELAY in 1..65535, one with T = 1 has DELAY = 0. -/
def delayMatchesT (delay : BitVec 16) (t : Bool) : Bool := t == (delay == 0#16)

/-- Rule R79: the reserved ACT and CAP codes are illegal words, and so is a timer descriptor whose
DELAY breaks rule R76. A nonzero reserved bit, or a BITSEL without CAP_BIT, is refused by the
decoder already. Every command word and every host line is legal (rule R78). -/
def Instr.wellFormed : Instr → Bool
  | .issueReset => true
  | .issueRead => true
  | .issueWrite _ => true
  | .issueRsvd => true
  | .poll _ => true
  | .tHold delay t => delayMatchesT delay t
  | .tDriveLow delay t => delayMatchesT delay t
  | .tRelease delay t => delayMatchesT delay t
  | .tSampleSet delay t => delayMatchesT delay t
  | .tSampleOr delay t => delayMatchesT delay t
  | .tRsvd5 _ => false
  | .tRsvd6 _ _ => false
  | .sCapNone _ _ => true
  | .sCapOrLow _ _ => true
  | .sCapBit _ _ _ => true
  | .sRsvd _ _ => false
  | .owWait _ => true
  | .owReset _ => true
  | .owWrbyte _ => true
  | .owRdbyte _ => true

end Sys2Proof
end

