-- ==== Sys2Proof/Decode.lean ====
section
/-! DEFINITION. The decoder (rules R70 to R81), total on every word and rejecting by name, and after
it the encoder, the rows of the opcode map, and the reading of a word as spec/opcode_table.json
numbers it. -/

namespace Sys2Proof

/-- Why a word decodes to no instruction. -/
inductive DecodeError where
  /-- A TDESC32 word with one of bits 15:4 set (rule R72). -/
  | reservedTimerBits
  /-- A SDESC16 word with bit 14 or 13 set, or with BITSEL ≠ 0 without CAP_BIT (rules R73, R79). -/
  | reservedShiftBits
deriving DecidableEq, Repr

/-- Rules R70, R75, R81: a command word. Bits 7 and 3:0 are ignored, and bit 4 unless OP = WRITE. -/
def decodeCmd (w : Byte) : Instr :=
  if w &&& 0x60#8 = 0x00#8 then .issueReset
  else if w &&& 0x60#8 = 0x20#8 then .issueRead
  else if w &&& 0x60#8 = 0x40#8 then .issueWrite (w.getLsbD 4)
  else .issueRsvd

/-- Rules R72, R76, R81: a step descriptor of the Timer-Tick Engine. -/
def decodeTimer (w : BitVec 32) : Except DecodeError Instr :=
  let delay := w.extractLsb' 16 16
  let t := w.getLsbD 3
  if w &&& 0x0000FFF7#32 = 0x00000000#32 then .ok (.tHold delay t)
  else if w &&& 0x0000FFF7#32 = 0x00000001#32 then .ok (.tDriveLow delay t)
  else if w &&& 0x0000FFF7#32 = 0x00000002#32 then .ok (.tRelease delay t)
  else if w &&& 0x0000FFF7#32 = 0x00000003#32 then .ok (.tSampleSet delay t)
  else if w &&& 0x0000FFF7#32 = 0x00000004#32 then .ok (.tSampleOr delay t)
  else if w &&& 0x00000007#32 = 0x00000005#32 then .ok (.tRsvd5 (w.extractLsb' 3 29))
  else if w &&& 0x00000006#32 = 0x00000006#32 then
    .ok (.tRsvd6 (w.extractLsb' 3 29) (w.getLsbD 0))
  else .error .reservedTimerBits

/-- Rules R73, R77, R81: a step descriptor of the Shift-Clock Engine. -/
def decodeShift (w : BitVec 16) : Except DecodeError Instr :=
  let pat := w.extractLsb' 0 8
  let t := w.getLsbD 15
  if w &&& 0x7F00#16 = 0x0000#16 then .ok (.sCapNone pat t)
  else if w &&& 0x7F00#16 = 0x0100#16 then .ok (.sCapOrLow pat t)
  else if w &&& 0x6300#16 = 0x0200#16 then .ok (.sCapBit pat (w.extractLsb' 10 3) t)
  else if w &&& 0x0300#16 = 0x0300#16 then .ok (.sRsvd (w.extractLsb' 10 6) pat)
  else .error .reservedShiftBits

/-- A pseudo-instruction line (rule R83). -/
def decodePseudo : Pseudo → Reg → Instr
  | .wait, rd => .owWait rd
  | .reset, rd => .owReset rd
  | .wrbyte, rs => .owWrbyte rs
  | .rdbyte, rd => .owRdbyte rd

/-- The decoder. A word's format is known from where it came from (rule R80). -/
def decode : Code → Except DecodeError Instr
  | .cmd w => .ok (decodeCmd w)
  | .stat rd => .ok (.poll rd)
  | .tdesc w => decodeTimer w
  | .sdesc w => decodeShift w
  | .pseudo p reg => .ok (decodePseudo p reg)

/-- Rule R72: `{DELAY, 000000000000, T, ACT}`. -/
def timerWord (delay : BitVec 16) (t : Bool) (act : BitVec 3) : BitVec 32 :=
  delay ++ 0#12 ++ BitVec.ofBool t ++ act

/-- Rule R73: `{T, 00, BITSEL, CAP, PAT}`. -/
def shiftWord (t : Bool) (bitsel : BitVec 3) (cap : BitVec 2) (pat : Byte) : BitVec 16 :=
  BitVec.ofBool t ++ 0#2 ++ bitsel ++ cap ++ pat

/-- The encoder: the word of an instruction. A command's is the canonical word of rule R71. -/
def encode : Instr → Code
  | .issueReset => .cmd 0x00#8
  | .issueRead => .cmd 0x20#8
  | .issueWrite p => .cmd (0x40#8 ||| (if p then 0x10#8 else 0x00#8))
  | .issueRsvd => .cmd 0x60#8
  | .poll rd => .stat rd
  | .tHold delay t => .tdesc (timerWord delay t 0b000#3)
  | .tDriveLow delay t => .tdesc (timerWord delay t 0b001#3)
  | .tRelease delay t => .tdesc (timerWord delay t 0b010#3)
  | .tSampleSet delay t => .tdesc (timerWord delay t 0b011#3)
  | .tSampleOr delay t => .tdesc (timerWord delay t 0b100#3)
  | .tRsvd5 rest => .tdesc (rest ++ 0b101#3)
  | .tRsvd6 rest b0 => .tdesc (rest ++ (if b0 then 0b111#3 else 0b110#3))
  | .sCapNone pat t => .sdesc (shiftWord t 0#3 0b00#2 pat)
  | .sCapOrLow pat t => .sdesc (shiftWord t 0#3 0b01#2 pat)
  | .sCapBit pat bitsel t => .sdesc (shiftWord t bitsel 0b10#2 pat)
  | .sRsvd rest pat => .sdesc (rest ++ 0b11#2 ++ pat)
  | .owWait rd => .pseudo .wait rd
  | .owReset rd => .pseudo .reset rd
  | .owWrbyte rs => .pseudo .wrbyte rs
  | .owRdbyte rd => .pseudo .rdbyte rd

/-- The formats of rule R80 whose words a decoder matches. -/
inductive Format where
  | cmd8
  | stat8
  | tdesc32
  | sdesc16
deriving DecidableEq, Repr

/-- One row of the opcode map of rule R81, its match and mask widened with zeros to 32 bits. -/
structure Row where
  mnemonic : String
  format   : Format
  pattern  : BitVec 32
  mask     : BitVec 32
deriving DecidableEq, Repr

/-- The opcode map of rule R81, in its order. The PSEUDO rows have no word: no decoder matches them. -/
def opcodeMap : List Row :=
  [ ⟨"ISSUE_RESET", .cmd8, 0x00#32, 0x60#32⟩,
    ⟨"ISSUE_READ", .cmd8, 0x20#32, 0x60#32⟩,
    ⟨"ISSUE_WRITE", .cmd8, 0x40#32, 0x60#32⟩,
    ⟨"ISSUE_RSVD", .cmd8, 0x60#32, 0x60#32⟩,
    ⟨"POLL", .stat8, 0x00#32, 0x00#32⟩,
    ⟨"T_HOLD", .tdesc32, 0x00000000#32, 0x0000FFF7#32⟩,
    ⟨"T_DRIVE_LOW", .tdesc32, 0x00000001#32, 0x0000FFF7#32⟩,
    ⟨"T_RELEASE", .tdesc32, 0x00000002#32, 0x0000FFF7#32⟩,
    ⟨"T_SAMPLE_SET", .tdesc32, 0x00000003#32, 0x0000FFF7#32⟩,
    ⟨"T_SAMPLE_OR", .tdesc32, 0x00000004#32, 0x0000FFF7#32⟩,
    ⟨"T_RSVD5", .tdesc32, 0x00000005#32, 0x00000007#32⟩,
    ⟨"T_RSVD6", .tdesc32, 0x00000006#32, 0x00000006#32⟩ ] ++
  [ ⟨"S_CAP_NONE", .sdesc16, 0x0000#32, 0x7F00#32⟩,
    ⟨"S_CAP_OR_LOW", .sdesc16, 0x0100#32, 0x7F00#32⟩,
    ⟨"S_CAP_BIT", .sdesc16, 0x0200#32, 0x6300#32⟩,
    ⟨"S_RSVD", .sdesc16, 0x0300#32, 0x0300#32⟩ ]

/-- The row whose match and mask a word fits. -/
def Row.fits (r : Row) (w : BitVec 32) : Bool := w &&& r.mask == r.pattern

/-- The mnemonic of an instruction, as spec/opcode_table.json spells it. -/
def Instr.mnemonic : Instr → String
  | .issueReset => "ISSUE_RESET"
  | .issueRead => "ISSUE_READ"
  | .issueWrite _ => "ISSUE_WRITE"
  | .issueRsvd => "ISSUE_RSVD"
  | .poll _ => "POLL"
  | .tHold _ _ => "T_HOLD"
  | .tDriveLow _ _ => "T_DRIVE_LOW"
  | .tRelease _ _ => "T_RELEASE"
  | .tSampleSet _ _ => "T_SAMPLE_SET"
  | .tSampleOr _ _ => "T_SAMPLE_OR"
  | .tRsvd5 _ => "T_RSVD5"
  | .tRsvd6 _ _ => "T_RSVD6"
  | .sCapNone _ _ => "S_CAP_NONE"
  | .sCapOrLow _ _ => "S_CAP_OR_LOW"
  | .sCapBit _ _ _ => "S_CAP_BIT"
  | .sRsvd _ _ => "S_RSVD"
  | .owWait _ => "ow.wait"
  | .owReset _ => "ow.reset"
  | .owWrbyte _ => "ow.wrbyte"
  | .owRdbyte _ => "ow.rdbyte"

/-- A word's format and its bits widened with zeros: nothing for a pseudo-instruction line, which
has no word, and no bits for a host read, which writes none. -/
def Code.formatAndBits : Code → Option (Format × BitVec 32)
  | .cmd w => some (.cmd8, w.setWidth 32)
  | .stat _ => some (.stat8, 0#32)
  | .tdesc w => some (.tdesc32, w)
  | .sdesc w => some (.sdesc16, w.setWidth 32)
  | .pseudo _ _ => none

/-- Where a table word of `nbits` bits comes from, which the table's caller does not say (log entry
14). 32 bits is a TDESC32 and 16 a SDESC16, 8 a CMD8. A number of bits shorter than the instruction
stands for a TDESC32 whose upper bits are zero: 16 bits that set nothing above bit 3 but are not all
zero, and the 8-bit words 5, 6 and 7, which are the reserved rows T_RSVD5 and T_RSVD6. -/
def tableCode (nbits w : Nat) : Option Code :=
  if nbits = 32 then some (.tdesc (BitVec.ofNat 32 w))
  else if nbits = 16 then
    if 0 < w ∧ w < 16 then some (.tdesc (BitVec.ofNat 32 w))
    else some (.sdesc (BitVec.ofNat 16 w))
  else if nbits = 8 then
    if 5 ≤ w ∧ w ≤ 7 then some (.tdesc (BitVec.ofNat 32 w))
    else some (.cmd (BitVec.ofNat 8 w))
  else none

/-- The instruction the decoder reads from a word numbered as spec/opcode_table.json numbers it. -/
def decodeTableWord (nbits w : Nat) : Option Instr :=
  match tableCode nbits w with
  | none => none
  | some c =>
    match decode c with
    | .ok i => some i
    | .error _ => none

end Sys2Proof
end

