-- ==== Sys2Proof/Machine/Tables.lean ====
section
/-! DEFINITION. The numeric parameters of rule R8, the default step tables of rules R147 and R181, and
the lookups into a configuration's tables (rules R105, R106). -/

namespace Sys2Proof.Machine

/-- N_MAX, the largest legal step count of one table (rule R8). -/
def nMax : Nat := 15
/-- One timer count at F_CNT = 1 MHz, in nanoseconds (rules R8, R76). -/
def nsPerCount : Nat := 1000
/-- T_PRIME in timer counts (rules R8, R146). -/
def primeCounts : Nat := 2
/-- T_BIT, the duration of one shifted bit (rules R8, R170). -/
def tBit : Nat := 9000
/-- T_XFER = 8 × T_BIT (rules R8, R77, R170). -/
def tXfer : Nat := 8 * tBit
/-- T_START, from a transfer start request to the first bit (rules R8, R171). -/
def tStart : Nat := 0
/-- How long the loop-back responder pulls a read slot low (rule R207). -/
def loopbackPull : Nat := 30000

/-- The table keys of rule R74. -/
def keyReset : Key := 0b000#3
def keyRead : Key := 0b010#3
def keyWrite0 : Key := 0b100#3
def keyWrite1 : Key := 0b101#3

/-- TABLES[key], where the key has a table (rule R105). -/
def lookupTable (cfg : Config) (key : Key) : Option (List Code) := cfg.tables.lookup key

/-- TABLES[key][n]: nothing when the key has no table or n is not below its step count (rule R106). -/
def lookupDesc (cfg : Config) (key : Key) (n : Nat) : Option Code :=
  match lookupTable cfg key with
  | none => none
  | some table => table[n]?

/-- The field PAT of a shift descriptor (rule R77). -/
def patOf : Code → Option Byte
  | .sdesc w => some (w.extractLsb' 0 8)
  | _ => none

/-- The default TIMER tables (rule R147). -/
def timerTables : List (Key × List Code) :=
  [ (keyReset, [.tdesc 0x01E00001#32, .tdesc 0x00460002#32, .tdesc 0x003C0004#32,
      .tdesc 0x015E0004#32, .tdesc 0x00000008#32]),
    (keyRead, [.tdesc 0x00020001#32, .tdesc 0x000A0002#32, .tdesc 0x00350003#32,
      .tdesc 0x00000008#32]),
    (keyWrite0, [.tdesc 0x00060001#32, .tdesc 0x00360000#32, .tdesc 0x00050002#32,
      .tdesc 0x00000008#32]),
    (keyWrite1, [.tdesc 0x00060001#32, .tdesc 0x00360002#32, .tdesc 0x00050000#32,
      .tdesc 0x00000008#32]) ]

/-- The default SHIFT_* tables (rule R181). -/
def shiftTables : List (Key × List Code) :=
  [ (keyReset, List.replicate 7 (.sdesc 0x0000#16) ++ [.sdesc 0x00FF#16] ++
      List.replicate 2 (.sdesc 0x01FF#16) ++ List.replicate 3 (.sdesc 0x00FF#16) ++
      [.sdesc 0x80FF#16]),
    (keyRead, [.sdesc 0x9A7F#16]),
    (keyWrite0, [.sdesc 0x8001#16]),
    (keyWrite1, [.sdesc 0x807F#16]) ]

/-- The default tables of an engine (rule R8, parameter TABLES). -/
def defaultTables : Engine → List (Key × List Code)
  | .timer => timerTables
  | .shiftIrq => shiftTables
  | .shiftPoll => shiftTables

/-- An instance with the default tables, at Level B, with L_MAX at its default 0 (rule R8).
DESIGN CHOICE (log entry 2): OWSEQ_BASE, an open parameter, is 0 here. -/
def defaultConfig (engine : Engine) : Config :=
  { level := .timed, engine := engine, tables := defaultTables engine, lMax := 0, base := 0 }

end Sys2Proof.Machine
end

