-- ==== Sys2Proof/Machine/State.lean ====
section
/-! DEFINITION. The state of the machine, as plain data: what rules R20 to R35 give OWSEQ, the agents
around it (the host program, the bus), the observer's record of one slot (rule R118), and the draws
the spec leaves free. INVENTORY.md lists every piece with its rule and its reset value. -/

namespace Sys2Proof.Machine

/-- The engine's drive state of the line (rule R30). -/
inductive Drive where
  /-- LOW: the engine pulls the line low. -/
  | low
  /-- REL: the engine releases the line. -/
  | rel
deriving DecidableEq, Repr

/-- The register FAULT (rules R35, R220): NONE, code 0, or ISSUE_BUSY, code 1. -/
inductive FaultCode where
  | none
  | issueBusy
deriving DecidableEq, Repr

/-- One line of a host program (rules R82, R83). An access names its address and width, because only
a 1-byte access at OWSEQ_BASE is an access to OWSEQ (rule R56). -/
inductive HostOp where
  /-- `MemWrite(addr, width, v)`: `ow.issue …` is one at OWSEQ_BASE, 1 byte. -/
  | write (addr width : Nat) (v : Byte)
  /-- `ow.issue write, rs`: writes `0x40 | (rs << 4)` at OWSEQ_BASE (rule R83; log entry 35 for rs above
  1). -/
  | writeBit (rs : Reg)
  /-- `rd <- MemRead(addr, width)`: `ow.poll rd` is one at OWSEQ_BASE, 1 byte. -/
  | read (addr width : Nat) (rd : Reg)
  /-- `ow.wait`, `ow.reset`, `ow.wrbyte` or `ow.rdbyte`. -/
  | pseudo (p : Pseudo) (reg : Reg)
  /-- `li rd, imm`. -/
  | li (rd : Reg) (imm : Byte)
  /-- `bit rd, rs, i`. -/
  | bit (rd rs : Reg) (i : Nat)
  /-- `or rd, rs, rt`. -/
  | or (rd rs rt : Reg)
  /-- `shl rd, rs, i`. -/
  | shl (rd rs : Reg) (i : Nat)
  /-- `dec rd`. -/
  | dec (rd : Reg)
  /-- `bnz rs, label`. -/
  | bnz (rs : Reg) (label : Nat)
  /-- `bz rs, label`. -/
  | bz (rs : Reg) (label : Nat)
deriving DecidableEq, Repr

/-- The host program's registers, one byte each (rule R82): r0 to r15 and the temporaries. -/
structure Regs where
  r  : Vector Byte 16
  t  : Byte
  t2 : Byte
  t3 : Byte
deriving DecidableEq, Repr

/-- The Host agent (rule R12): its program, its place in it, and its registers. -/
structure HostCtx where
  regs   : Regs
  prog   : List HostOp
  /-- The index of the program's next line. -/
  pc     : Nat
  /-- The lines left of a pseudo-instruction's expansion, which run before line `pc`. -/
  micro  : List HostOp
  /-- The earliest time of the Host's next step (Level B). -/
  nextAt : Nat
deriving DecidableEq, Repr

/-- A device on the line that reacts to what the engine does (rule R54). -/
inductive Responder where
  /-- Pulls over `[tR + lo, tR + hi)` of every Reset-Pulse slot. -/
  | presence (lo hi : Nat)
  /-- Pulls over `[tL, tL + len)` of every Read-Bit slot. -/
  | readLow (len : Nat)
  /-- The loop-back responder LB (rule R207): its FIFO Q, and the bit it sends in the read slot in
  flight. -/
  | loopback (q : List Bool) (bit : Bool)
deriving DecidableEq, Repr

/-- The Bus agent (rules R53, R54): the intervals `[lo, hi)` over which a device pulls, the devices
that add to them, and whether devices the model does not name may pull too. -/
structure Bus where
  pulls      : List (Nat × Nat)
  responders : List Responder
  free       : Bool
deriving DecidableEq, Repr

/-- What an observer notes of the slot in flight, or of the last one (rule R118): tL, tR and tE,
whether DRIVE went LOW again after tR, and the instants of its samples, of each kind. -/
structure Slot where
  tL       : Option Nat
  tR       : Option Nat
  relow    : Bool
  /-- The presence samples: SAMPLE_OR and CAP_OR_LOW (rule R119). -/
  presence : List Nat
  /-- The read samples: SAMPLE_SET and CAP_BIT (rule R120). -/
  reads    : List Nat
  tE       : Option Nat
deriving DecidableEq, Repr

/-- The draws the spec leaves free, in the order they are used. Where a list is empty the draw is the
free value of Config at number `fresh`. -/
structure Inputs where
  /-- The host's time from one of its steps to the next. -/
  gaps    : List Nat
  /-- Handler latencies (rule R107), each bounded by L_MAX when it is used. -/
  lats    : List Nat
  /-- Whether the Host goes before a tick of the same instant (rule R59). -/
  ties    : List Bool
  /-- Level A's line samples (rule R109). -/
  samples : List Bool
  /-- Level A's captured bytes (rule R109). -/
  bytes   : List Byte
  /-- The times of the platform's pending block resets (rules R250, R251). -/
  resets  : List Nat
  /-- The number of free values drawn so far. -/
  fresh   : Nat
deriving DecidableEq, Repr

/-- The state of OWSEQ and of the agents around it. -/
structure State where
  /-- The configuration, which no step writes (rule R36). -/
  cfg       : Config
  /-- Level B's clock (rule R233). -/
  now       : Nat
  /-- STEP, the Step Code register (rules R21 to R26). -/
  step      : Byte
  /-- DRIVE (rule R30). -/
  drive     : Drive
  /-- ARMED (rule R31). -/
  armed     : Bool
  /-- NEXT_T (rule R31). -/
  nextT     : Nat
  /-- CNT, of ENGINE = TIMER (rule R32). -/
  cnt       : BitVec 16
  /-- The model's own: a time at which CNT counts, a whole count from all others (log entry 19). It is
  the last reload's, and NEXT_T is not read for it, since it means nothing while ARMED = 0. -/
  cntPhase  : Nat
  /-- TXD, of ENGINE = SHIFT_* (rule R33). -/
  txd       : Byte
  /-- RXD, of ENGINE = SHIFT_* (rule R33). -/
  rxd       : Byte
  /-- XFER_BUSY, of ENGINE = SHIFT_* (rule R33). -/
  xferBusy  : Bool
  /-- XFER_START, of ENGINE = SHIFT_* (rule R33). -/
  xferStart : Nat
  /-- TRAPPED (rule R35). -/
  trapped   : Bool
  /-- FAULT (rule R35). -/
  fault     : FaultCode
  host      : HostCtx
  bus       : Bus
  slot      : Slot
  inputs    : Inputs
deriving DecidableEq, Repr

/-- Why the machine stops. -/
inductive Fault where
  /-- Raised by `step` when FAULT ≠ NONE and no block reset is pending: no agent has an enabled step
  (rule R224). The rule's own stop: safe. -/
  | quiescent
  /-- Raised by `step` when no tick is armed, no block reset is pending and the Host has no further
  line: the run has ended (rule R258), or stands still. Nothing in the spec moves then: safe. -/
  | noEnabledStep
deriving DecidableEq, Repr

/-- Why the model has no meaning for a step. -/
inductive Refusal where
  /-- Raised by `exec` for an instruction that has no meaning yet: safe, and a gap. -/
  | notModelled (mnemonic : String)
  /-- Raised by `step` when the table configuration is not legal, and by a shift descriptor whose
  successor does not exist: such a configuration has no run at all (rule R117). Safe. -/
  | illegalConfiguration
  /-- Raised by a descriptor that is no legal word (rule R79): the model refuses it. Safe. -/
  | illegalDescriptor
  /-- Raised by a descriptor of the backend that this instance does not have (rules R20, R80): the
  step tables never give one. Safe. -/
  | otherBackend
  /-- Raised by the host's access of another width or at another address (rules R56, R225): it is no
  OWSEQ step, and the model has no transition for it. Safe. -/
  | badAccess
deriving DecidableEq, Repr

/-- STEP after block reset (rule R38): READY = 1, OP = 0b00, RESULT = 0, PROG = 0. -/
def stepReset : Byte := 0x80#8

/-- The host's registers at reset. DESIGN CHOICE (log entry 4): zero, since the host is outside the spec. -/
def Regs.zero : Regs := { r := Vector.replicate 16 0#8, t := 0#8, t2 := 0#8, t3 := 0#8 }

/-- A slot of which nothing has been seen. -/
def Slot.empty : Slot :=
  { tL := none, tR := none, relow := false, presence := [], reads := [], tE := none }

/-- The state right after block reset (rules R38, R250), with no host program and devices that are
left free. NEXT_T, CNT, TXD, RXD and XFER_START are unspecified there. DESIGN CHOICE (log entry 3): zero,
and so is the phase of CNT. -/
def State.resetWith (cfg : Config) : State :=
  { cfg := cfg
    now := 0
    step := stepReset
    drive := .rel
    armed := false
    nextT := 0
    cnt := 0#16
    cntPhase := 0
    txd := 0#8
    rxd := 0#8
    xferBusy := false
    xferStart := 0
    trapped := false
    fault := .none
    host := { regs := Regs.zero, prog := [], pc := 0, micro := [], nextAt := 0 }
    bus := { pulls := [], responders := [], free := true }
    slot := Slot.empty
    inputs := { gaps := [], lats := [], ties := [], samples := [], bytes := [], resets := [], fresh := 0 } }

/-- The machine right after reset. DESIGN CHOICE (log entry 2): of the three ENGINE values of rule R2
it is a TIMER instance; `State.resetWith` gives the others. -/
def State.reset : State := State.resetWith (defaultConfig .timer)

end Sys2Proof.Machine
end

