-- ==== Sys2Proof/Machine/Flags.lean ====
section
/-! DEFINITION. The fields of STEP (rules R21 to R25) and the computation of its two flags, READY and
RESULT (rule R29). -/

namespace Sys2Proof.Machine

/-- STEP.READY, bit 7. -/
def stepReady (w : Byte) : Bool := w.getLsbD 7
/-- STEP.OP, bits 6:5. -/
def stepOp (w : Byte) : BitVec 2 := w.extractLsb' 5 2
/-- STEP.RESULT, bit 4. -/
def stepResult (w : Byte) : Bool := w.getLsbD 4
/-- STEP.PROG, bits 3:0. -/
def stepProg (w : Byte) : BitVec 4 := w.extractLsb' 0 4

/-- `{READY, OP, RESULT, PROG}` (rule R21). -/
def mkStep (ready : Bool) (op : BitVec 2) (result : Bool) (prog : BitVec 4) : Byte :=
  BitVec.ofBool ready ++ op ++ BitVec.ofBool result ++ prog

/-- The operations of rule R23. -/
def opReset : BitVec 2 := 0b00#2
def opRead : BitVec 2 := 0b01#2
def opWrite : BitVec 2 := 0b10#2
def opRsvd : BitVec 2 := 0b11#2

/-- `STEP.READY <- b`. -/
def withReady (b : Bool) (w : Byte) : Byte := mkStep b (stepOp w) (stepResult w) (stepProg w)
/-- `STEP.RESULT <- b`. -/
def withResult (b : Bool) (w : Byte) : Byte := mkStep (stepReady w) (stepOp w) b (stepProg w)
/-- `STEP.PROG <- n`. -/
def withProg (n : BitVec 4) (w : Byte) : Byte := mkStep (stepReady w) (stepOp w) (stepResult w) n

/-- STEP as ISSUE leaves it for the written byte `w`: `READY <- 0; OP <- w[6:5]`, RESULT the
parameter bit `w[4]` for WRITE and 0 otherwise, `PROG <- 0` (rule R101). -/
def issuedStep (w : Byte) : Byte :=
  mkStep false (stepOp w) (stepOp w == opWrite && w.getLsbD 4) 0#4

/-- RESULT after T_SAMPLE_SET of the line level (rule R142). -/
def resultSampleSet (level : Bool) : Bool := level
/-- RESULT after T_SAMPLE_OR: `RESULT OR (Sample() = 0)` (rule R143). -/
def resultSampleOr (result level : Bool) : Bool := result || !level
/-- RESULT after S_CAP_BIT: `RXD[BITSEL]` (rule R175). -/
def resultCapBit (rxd : Byte) (bitsel : BitVec 3) : Bool := rxd.getLsbD bitsel.toNat
/-- RESULT after S_CAP_OR_LOW: `RESULT OR (RXD ≠ 0xFF)` (rule R176). -/
def resultCapOrLow (result : Bool) (rxd : Byte) : Bool := result || rxd != 0xFF#8

/-- The table key of a STEP value (rules R74, R105). -/
def keyOf (w : Byte) : Key := stepOp w ++ BitVec.ofBool (stepOp w == opWrite && stepResult w)

end Sys2Proof.Machine
end

