-- ==== Sys2Proof/Machine/Operands.lean ====
section
/-! DEFINITION. The operand forms: delays and reloads (rules R76, R145), bit cells and their instants
(rules R173, R174), and the host program's registers and byte operations (rules R82, R83). -/

namespace Sys2Proof.Machine

/-- The reload value `2^16 − d` for a delay of `d` counts (rules R32, R145). -/
def reload (d : Nat) : BitVec 16 := BitVec.ofNat 16 (2 ^ 16 - d)

/-- How many times the free-running counter counts over `(lo, hi]` (rule R32): its instants are those
that differ from `phase` by whole counts of F_CNT. -/
def countsBetween (phase lo hi : Nat) : Nat :=
  let toGrid := nsPerCount - phase % nsPerCount
  (hi + toGrid) / nsPerCount - (lo + toGrid) / nsPerCount

/-- The drive of an output bit: 0 pulls the line low, 1 releases it (rule R170). -/
def driveOfBit (b : Bool) : Drive := if b then .rel else .low

/-- The drive of bit cell `k` of a pattern, most-significant bit first (rules R55, R173). -/
def cellDrive (pat : Byte) (k : Nat) : Drive := driveOfBit (pat.getLsbD (7 - k))

/-- The start of bit cell `k` of a transfer that started at `s` (rule R173). -/
def cellStart (s : Nat) (k : Nat) : Nat := s + k * tBit

/-- The instant RXD samples cell `k`: the middle of the cell (rule R174). -/
def cellSample (s : Nat) (k : Nat) : Nat := s + k * tBit + tBit / 2

/-- `v` with bit `i` set to `b`. -/
def setBit (v : Byte) (i : Nat) (b : Bool) : Byte :=
  if b then v ||| (1#8 <<< i) else v &&& ~~~(1#8 <<< i)

/-- A bit as a byte, 0 or 1 (rule R82). -/
def byteOfBit (b : Bool) : Byte := if b then 1#8 else 0#8

/-- The byte that `ow.issue write, rs` writes: `0x40 | (rs << 4)` (rule R83). DESIGN CHOICE (log entry
35): the formula is taken for any byte in rs, cut to 8 bits, also where rs is no bit. -/
def writeBitByte (v : Byte) : Byte := 0x40#8 ||| (v <<< 4)

/-- Read a host register. -/
def Regs.get (rs : Regs) : Reg → Byte
  | .r n => rs.r[n.val]
  | .t => rs.t
  | .t2 => rs.t2
  | .t3 => rs.t3

/-- Write a host register. -/
def Regs.set (rs : Regs) (reg : Reg) (v : Byte) : Regs :=
  match reg with
  | .r n => { rs with r := rs.r.set n.val v }
  | .t => { rs with t := v }
  | .t2 => { rs with t2 := v }
  | .t3 => { rs with t3 := v }

/-- The lines of `ow.wrbyte rs` for bits `i` and up (rule R83): `bit t, rs, i; ow.issue write, t;
ow.wait t3`, for `n` bits. -/
def wrbyteLines (rs : Reg) : Nat → Nat → List HostOp
  | _, 0 => []
  | i, n + 1 =>
    .bit .t rs i :: .writeBit .t :: .pseudo .wait .t3 :: wrbyteLines rs (i + 1) n

/-- The lines of `ow.rdbyte rd` after `li rd, 0`, for bits `i` and up (rule R83): `ow.issue read;
ow.wait t; shl t, t, i; or rd, rd, t`, for `n` bits. `base` is OWSEQ_BASE. -/
def rdbyteLines (base : Nat) (rd : Reg) : Nat → Nat → List HostOp
  | _, 0 => []
  | i, n + 1 =>
    .write base 1 0x20#8 :: .pseudo .wait .t :: .shl .t .t i :: .or rd rd .t ::
      rdbyteLines base rd (i + 1) n

end Sys2Proof.Machine
end

