-- ==== Sys2Proof/Machine/Ops.lean ====
section
/-! DEFINITION. The named operations on the state: STEP, the line, the tick source, the two
backends, the trap and the fault, block reset, and the host's side. The primitives are those of rule
R11. Each field of State is written through an operation of this file. -/

namespace Sys2Proof.Machine

/-! ### Field updates -/

def State.setNow (t : Nat) (s : State) : State := { s with now := t }
def State.setStep (w : Byte) (s : State) : State := { s with step := w }
def State.setDrive (d : Drive) (s : State) : State := { s with drive := d }
def State.setArmed (b : Bool) (s : State) : State := { s with armed := b }
def State.setNextT (t : Nat) (s : State) : State := { s with nextT := t }
def State.setCnt (c : BitVec 16) (s : State) : State := { s with cnt := c }
def State.setCntPhase (t : Nat) (s : State) : State := { s with cntPhase := t }
def State.setTxd (p : Byte) (s : State) : State := { s with txd := p }
def State.setRxd (p : Byte) (s : State) : State := { s with rxd := p }
def State.setXferBusy (b : Bool) (s : State) : State := { s with xferBusy := b }
def State.setXferStart (t : Nat) (s : State) : State := { s with xferStart := t }
def State.setTrapped (b : Bool) (s : State) : State := { s with trapped := b }
def State.setFault (c : FaultCode) (s : State) : State := { s with fault := c }
def State.setHost (h : HostCtx) (s : State) : State := { s with host := h }
def State.setBus (b : Bus) (s : State) : State := { s with bus := b }
def State.setSlot (sl : Slot) (s : State) : State := { s with slot := sl }
def State.setInputs (i : Inputs) (s : State) : State := { s with inputs := i }

/-! ### STEP -/

def State.ready (s : State) : Bool := stepReady s.step
def State.op (s : State) : BitVec 2 := stepOp s.step
def State.result (s : State) : Bool := stepResult s.step
def State.prog (s : State) : BitVec 4 := stepProg s.step
/-- KEY of the current sequence (rule R105). -/
def State.key (s : State) : Key := keyOf s.step

/-- `STEP.RESULT <- b`. -/
def setResult (b : Bool) (s : State) : State := s.setStep (withResult b s.step)
/-- `STEP.PROG <- STEP.PROG + 1`, a 4-bit sum (rules R25, R108). -/
def advanceProg (s : State) : State := s.setStep (withProg (s.prog + 1#4) s.step)

/-- `TABLES[KEY][STEP.PROG]`, where it is defined (rule R106). -/
def fetchDesc (s : State) : Option Code := lookupDesc s.cfg s.key s.prog.toNat

/-! ### The bus (rules R53, R54, R207) -/

/-- Pull(t): at least one device pulls the line low at `t`. Several devices combine by OR. -/
def pull (b : Bus) (t : Nat) : Bool :=
  b.pulls.any (fun p => decide (p.1 ≤ t) && decide (t < p.2)) || (b.free && Config.freePull t)

/-- Line(t) for the drive state at `t` (rule R53): wired-AND. -/
def lineLevel (d : Drive) (b : Bus) (t : Nat) : Bool :=
  match d with
  | .low => false
  | .rel => !pull b t

/-- What a responder adds to the pulls at the slot's first low instant `t` (rule R207). DESIGN CHOICE
(log entry 29): once put down, an interval is not cut when the read sequence ends or is dropped before
it. -/
def Responder.pullsOnLow (op : BitVec 2) (t : Nat) : Responder → List (Nat × Nat)
  | .presence _ _ => []
  | .readLow len => if op = opRead then [(t, t + len)] else []
  | .loopback _ bit => if op = opRead ∧ bit = false then [(t, t + loopbackPull)] else []

/-- What a responder adds to the pulls at the slot's release `t`. -/
def Responder.pullsOnRelease (op : BitVec 2) (t : Nat) : Responder → List (Nat × Nat)
  | .presence lo hi => if op = opReset then [(t + lo, t + hi)] else []
  | .readLow _ => []
  | .loopback _ _ => []

/-- LB takes the head bit of Q when a Read-Bit sequence starts, or 1 if Q is empty (rule R207). -/
def Responder.onIssue (op : BitVec 2) : Responder → Responder
  | .presence lo hi => .presence lo hi
  | .readLow len => .readLow len
  | .loopback q bit =>
    if op = opRead then
      match q with
      | [] => .loopback [] true
      | q0 :: rest => .loopback rest q0
    else .loopback q bit

/-- LB appends P to Q when a Write-Bit sequence with bit P reaches READY (rule R207). -/
def Responder.onReady (op : BitVec 2) (result : Bool) : Responder → Responder
  | .presence lo hi => .presence lo hi
  | .readLow len => .readLow len
  | .loopback q bit => if op = opWrite then .loopback (q ++ [result]) bit else .loopback q bit

/-- More intervals. None is taken back later (log entry 29). -/
def Bus.addPulls (ps : List (Nat × Nat)) (b : Bus) : Bus := { b with pulls := b.pulls ++ ps }
def Bus.mapResponders (f : Responder → Responder) (b : Bus) : Bus :=
  { b with responders := b.responders.map f }

/-! ### Driving the line -/

/-- The observer's record and the devices' answer when DRIVE takes the value `d` at time `t` of
Level B (rules R118, R207). Level A has no times and no Pull (rule R54). -/
def noteDrive (t : Nat) (d : Drive) (s : State) : State :=
  match s.cfg.level, d, s.slot.tL, s.slot.tR with
  | .timed, .low, none, _ =>
    (s.setSlot { s.slot with tL := some t }).setBus
      (s.bus.addPulls (s.bus.responders.flatMap (Responder.pullsOnLow s.op t)))
  | .timed, .low, some _, some _ => s.setSlot { s.slot with relow := true }
  | .timed, .rel, some _, none =>
    (s.setSlot { s.slot with tR := some t }).setBus
      (s.bus.addPulls (s.bus.responders.flatMap (Responder.pullsOnRelease s.op t)))
  | _, _, _, _ => s

/-- `Drive(d)` at time `t` (rules R11, R30). -/
def driveAt (t : Nat) (d : Drive) (s : State) : State := noteDrive t d (s.setDrive d)

/-- `Drive(d)` at the instant of the step (rules R140, R141). -/
def driveLine (d : Drive) (s : State) : State := driveAt s.now d s

/-! ### Free draws -/

/-- The head of a list of draws, or the free value at the draw's number. -/
def drawn {α : Type} (given : List α) (free : Nat → α) (n : Nat) : α :=
  match given with
  | [] => free n
  | x :: _ => x

/-- The latency of the next tick, a draw in [0, L_MAX] (rule R107). -/
def latency (s : State) : Nat :=
  if s.cfg.lMax = 0 then 0
  else min (drawn s.inputs.lats Config.freeLatency s.inputs.fresh) s.cfg.lMax

/-- The host's time to its next step after this one. DESIGN CHOICE (log entry 30): any time, 0 among
them, and nothing bounds how often. -/
def hostGap (s : State) : Nat := drawn s.inputs.gaps Config.freeGap s.inputs.fresh

/-- Whether the Host goes first at a tie (rule R59). DESIGN CHOICE (log entry 30): no fairness. -/
def tieHost (s : State) : Bool := drawn s.inputs.ties Config.freeTie s.inputs.fresh

def useLat (s : State) : State :=
  s.setInputs { s.inputs with lats := s.inputs.lats.tail, fresh := s.inputs.fresh + 1 }
def useGap (s : State) : State :=
  s.setInputs { s.inputs with gaps := s.inputs.gaps.tail, fresh := s.inputs.fresh + 1 }
def useTie (s : State) : State :=
  s.setInputs { s.inputs with ties := s.inputs.ties.tail, fresh := s.inputs.fresh + 1 }
def useSample (s : State) : State :=
  s.setInputs { s.inputs with samples := s.inputs.samples.tail, fresh := s.inputs.fresh + 1 }
def useByte (s : State) : State :=
  s.setInputs { s.inputs with bytes := s.inputs.bytes.tail, fresh := s.inputs.fresh + 1 }
def useReset (s : State) : State := s.setInputs { s.inputs with resets := s.inputs.resets.tail }

/-! ### Sampling -/

/-- Line(h) at the instant of the step (rule R53). -/
def line (s : State) : Bool := lineLevel s.drive s.bus s.now

/-- `Sample()` (rules R11, R109): the line's level at Level B, a draw at Level A. -/
def sample (s : State) : Bool :=
  match s.cfg.level with
  | .timed => line s
  | .untimed => drawn s.inputs.samples Config.freeSample s.inputs.fresh

/-- Which samples a sample instant counts among. -/
inductive SampleKind where
  /-- A presence sample: SAMPLE_OR, or CAP_OR_LOW (rule R119). -/
  | presence
  /-- The read sample: SAMPLE_SET, or CAP_BIT (rule R120). -/
  | read
deriving DecidableEq, Repr

/-- The record with more sample instants of one kind. -/
def Slot.addSamples (kind : SampleKind) (ts : List Nat) (sl : Slot) : Slot :=
  match kind with
  | .presence => { sl with presence := sl.presence ++ ts }
  | .read => { sl with reads := sl.reads ++ ts }

/-- The observer's record of sample instants (rules R118 to R120). -/
def noteSamples (kind : SampleKind) (ts : List Nat) (s : State) : State :=
  match s.cfg.level with
  | .timed => s.setSlot (s.slot.addSamples kind ts)
  | .untimed => s

/-- What taking a sample leaves: Level A has used a draw, Level B notes the instant. -/
def tookSample (kind : SampleKind) (s : State) : State :=
  match s.cfg.level with
  | .timed => noteSamples kind [s.now] s
  | .untimed => useSample s

/-! ### The tick source (rule R31) -/

/-- A time that Level B writes and Level A, which has no times, leaves as it was. -/
def atLevel (level : Level) (written kept : Nat) : Nat :=
  match level with
  | .timed => written
  | .untimed => kept

/-- `ArmTick(t)`. In Level A it is `ARMED <- 1` (rule R109). -/
def armTick (t : Nat) (s : State) : State :=
  (s.setArmed true).setNextT (atLevel s.cfg.level t s.nextT)

/-- `Disarm()`. -/
def disarm (s : State) : State := s.setArmed false

/-- Reload the timer for a delay of `d` counts, and arm the tick that its overflow raises (rules
R145, R146). CNT counts first a whole count later, so its phase is this instant's. -/
def reloadTimer (d : Nat) (s : State) : State :=
  armTick (s.now + d * nsPerCount)
    ((s.setCnt (reload d)).setCntPhase (atLevel s.cfg.level s.now s.cntPhase))

/-! ### The shift peripheral (rules R170 to R174) -/

/-- `StartXfer(p)` at time `st` (rule R172), with the first cell's drive (rule R173). In Level A the
times are erased. -/
def startXfer (p : Byte) (st : Nat) (s : State) : State :=
  armTick (st + tXfer) (driveAt st (cellDrive p 0)
    (((s.setTxd p).setXferBusy true).setXferStart (atLevel s.cfg.level st s.xferStart)))

/-- What a transfer does by itself at an instant of its run. -/
inductive CellEvent where
  /-- The cell `k` starts: its bit drives the line. -/
  | drive (k : Nat)
  /-- The middle of cell `k`: RXD takes one bit. -/
  | sample (k : Nat)
  /-- The transfer is complete. -/
  | done
deriving DecidableEq, Repr

/-- The instants of a transfer that starts at `s`, in order, for cells `k` and up. -/
def cellEvents (s : Nat) : Nat → Nat → List (Nat × CellEvent)
  | _, 0 => [(s + tXfer, .done)]
  | k, n + 1 => (cellStart s k, .drive k) :: (cellSample s k, .sample k) :: cellEvents s (k + 1) n

/-- The effect of one instant of a transfer (rules R172 to R174). -/
def applyCell (t : Nat) (e : CellEvent) (s : State) : State :=
  match e with
  | .drive k => driveAt t (cellDrive s.txd k) s
  | .sample k => s.setRxd (setBit s.rxd (7 - k) (lineLevel s.drive s.bus t))
  | .done => s.setXferBusy false

/-- The instants of a list that lie in `(lo, hi]`, applied in order. -/
def applyCells (lo hi : Nat) : List (Nat × CellEvent) → State → State
  | [], s => s
  | e :: rest, s =>
    applyCells lo hi rest (if lo < e.1 ∧ e.1 ≤ hi then applyCell e.1 e.2 s else s)

/-- The transfer in flight runs from the clock's time to `t` (rule R172). -/
def runXfer (t : Nat) (s : State) : State :=
  if s.xferBusy then applyCells s.now t (cellEvents s.xferStart 0 8) s else s

/-- In Level A a transfer completes with its tick: RXD is a fresh draw (rule R109), and DRIVE has the
last bit (rule R173). -/
def completeUntimed (s : State) : State :=
  ((useByte s).setRxd (drawn s.inputs.bytes Config.freeByte s.inputs.fresh)
    |>.setDrive (cellDrive s.txd 7)).setXferBusy false

/-- TIMER's counter runs freely from the clock's time to `t`, whether a tick is armed or not (rule
R32), at the phase that the last reload gave it (log entry 19). -/
def runCounter (t : Nat) (s : State) : State :=
  s.setCnt (s.cnt + BitVec.ofNat 16 (countsBetween s.cntPhase s.now t))

/-- The clock advances to `t`: the backend runs by itself meanwhile. In Level A nothing happens. -/
def advanceTo (t : Nat) (s : State) : State :=
  match s.cfg.level with
  | .untimed => s
  | .timed =>
    match s.cfg.engine with
    | .timer => (runCounter t s).setNow t
    | .shiftIrq => (runXfer t s).setNow t
    | .shiftPoll => (runXfer t s).setNow t

/-! ### Issuing a command (rule R101) -/

/-- The pattern of transfer 0: `TABLES[KEY][0].PAT`, or 0xFF if KEY has no table (rule R171). -/
def primePattern (s : State) : Byte :=
  match lookupDesc s.cfg s.key 0 with
  | none => 0xFF#8
  | some c => (patOf c).getD 0xFF#8

/-- `Prime(t)` at the instant of the step (rules R101, R146, R171). -/
def prime (s : State) : State :=
  match s.cfg.engine with
  | .timer => reloadTimer primeCounts s
  | .shiftIrq => startXfer (primePattern s) (s.now + tStart) s
  | .shiftPoll => startXfer (primePattern s) (s.now + tStart) s

/-- `raise Fault(ISSUE_BUSY)`: `FAULT <- ISSUE_BUSY` and nothing else (rules R223, R224). -/
def raiseIssueBusy (s : State) : State := s.setFault .issueBusy

/-- The devices see the command and the observer starts a new slot (rules R118, R207). -/
def noteIssue (op : BitVec 2) (s : State) : State :=
  (s.setBus (s.bus.mapResponders (Responder.onIssue op))).setSlot Slot.empty

/-- An accepted command: STEP is written whole and the backend primed. -/
def accept (w : Byte) (s : State) : State :=
  prime (noteIssue (stepOp w) (s.setStep (issuedStep w)))

/-- `ISSUE(w, t)` (rule R101): the check on READY comes before any other effect (rule R223). -/
def issue (w : Byte) (s : State) : State := if s.ready then accept w s else raiseIssueBusy s

/-! ### Ending a sequence -/

/-- The devices see the sequence end and the observer notes tE, the event time of the terminal tick
(rules R118, R207). -/
def noteReady (s : State) : State :=
  let s1 := s.setBus (s.bus.mapResponders (Responder.onReady s.op s.result))
  match s.cfg.level with
  | .timed => s1.setSlot { s.slot with tE := some s.nextT }
  | .untimed => s1

/-- `Terminal()`: `STEP.READY <- 1; Disarm()` (rule R110). -/
def terminal (s : State) : State := noteReady (disarm (s.setStep (withReady true s.step)))

/-- `Trap()`, taking the trap TRAP_NO_STEP: `Disarm(); TRAPPED <- 1`, and nothing saved (rules R112,
R221, R229). There is no return from it (rule R231). -/
def trap (s : State) : State := (disarm s).setTrapped true

/-! ### Block reset (rules R250, R251, R254) -/

/-- Boot step 1: the pin is an open-drain output in the released state. DESIGN CHOICE (log entry 31):
no responder takes this release for the one it answers, and the observer does not note it. -/
def bootPin (s : State) : State := s.setDrive .rel
/-- Boot step 2: the tick source is set up, stopped. NEXT_T, CNT, TXD, RXD and XFER_START are
unspecified there (rule R250). DESIGN CHOICE (log entry 3): zero, and so is the phase of CNT. -/
def bootTickSource (s : State) : State :=
  (((((((s.setArmed false).setNextT 0).setCnt 0#16).setCntPhase 0).setTxd 0#8).setRxd 0#8).setXferBusy false
    |>.setXferStart 0)
/-- Boot step 3: STEP holds 0x80, and the model-only state is clear. -/
def bootStep (s : State) : State := ((s.setStep stepReset).setTrapped false).setFault .none
/-- Boot step 4: the host's interrupts are enabled. OWSEQ has no state for it (rule R227); the
observer has seen nothing of a slot. -/
def bootInterrupts (s : State) : State := s.setSlot Slot.empty

/-- Block reset: the effect of the initialisation of rule R254. The Bus and the host program are not
reset (rule R251). -/
def blockReset (s : State) : State := bootInterrupts (bootStep (bootTickSource (bootPin s)))

/-! ### The Host's side (rules R82, R83, R113) -/

/-- `rd <- v` in the host program's registers. -/
def writeReg (rd : Reg) (v : Byte) (s : State) : State :=
  s.setHost { s.host with regs := s.host.regs.set rd v }
/-- The value of a host register. -/
def readReg (rs : Reg) (s : State) : Byte := s.host.regs.get rs
/-- Put lines before the rest of the host program. -/
def pushLines (ls : List HostOp) (s : State) : State :=
  s.setHost { s.host with micro := ls ++ s.host.micro }

/-- The Host's next line. -/
def nextLine (s : State) : Option HostOp :=
  match s.host.micro with
  | op :: _ => some op
  | [] => s.host.prog[s.host.pc]?

/-- The Host moves past its next line. -/
def passLine (s : State) : State :=
  match s.host.micro with
  | _ :: rest => s.setHost { s.host with micro := rest }
  | [] => s.setHost { s.host with pc := s.host.pc + 1 }

/-- A line that does not access OWSEQ: the obvious meaning on bytes (rule R82). DESIGN CHOICE (log entry
33), where R82 states no edge: a bit above 7 is 0, a shift by 8 or more gives 0, and `dec` of 0 gives
0xFF. A line that accesses OWSEQ changes nothing here. -/
def hostLocal (op : HostOp) (s : State) : State :=
  match op with
  | .li rd imm => writeReg rd imm s
  | .bit rd rs i => writeReg rd (byteOfBit ((readReg rs s).getLsbD i)) s
  | .or rd rs rt => writeReg rd (readReg rs s ||| readReg rt s) s
  | .shl rd rs i => writeReg rd (readReg rs s <<< i) s
  | .dec rd => writeReg rd (readReg rd s - 1#8) s
  | .bnz rs label => if readReg rs s = 0#8 then s else s.setHost { s.host with pc := label }
  | .bz rs label => if readReg rs s = 0#8 then s.setHost { s.host with pc := label } else s
  | .write _ _ _ => s
  | .writeBit _ => s
  | .read _ _ _ => s
  | .pseudo _ _ => s

/-- What a host line asks of OWSEQ. -/
inductive LineKind where
  /-- It accesses OWSEQ, or is a pseudo-instruction: a word to decode. -/
  | code (c : Code)
  /-- It does not access OWSEQ. -/
  | inHost
  /-- An access that is not a 1-byte access at OWSEQ_BASE (rules R56, R225). -/
  | notOwseq
deriving DecidableEq, Repr

/-- Whether an access is one to STEP (rules R50, R56). -/
def isStepAccess (cfg : Config) (addr width : Nat) : Bool := addr == cfg.base && width == 1

/-- What a host line asks of OWSEQ (rules R50, R56, R80, R83). -/
def lineKind (op : HostOp) (s : State) : LineKind :=
  match op with
  | .write addr width v => if isStepAccess s.cfg addr width then .code (.cmd v) else .notOwseq
  | .writeBit rs => .code (.cmd (writeBitByte (readReg rs s)))
  | .read addr width rd => if isStepAccess s.cfg addr width then .code (.stat rd) else .notOwseq
  | .pseudo p reg => .code (.pseudo p reg)
  | .li _ _ => .inHost
  | .bit _ _ _ => .inHost
  | .or _ _ _ => .inHost
  | .shl _ _ _ => .inHost
  | .dec _ => .inHost
  | .bnz _ _ => .inHost
  | .bz _ _ => .inHost

/-- In SHIFT_POLL the write that issued a command does not complete until READY = 1 or TRAPPED = 1:
until then the Host has no further step (rules R101, R180). -/
def hostBlocked (s : State) : Bool :=
  match s.cfg.engine with
  | .shiftPoll => !s.ready && !s.trapped
  | .timer => false
  | .shiftIrq => false

end Sys2Proof.Machine
end

