-- ==== Sys2Proof/Machine/Command.lean ====
section
/-! DEFINITION. The host commands and the host read: ISSUE_RESET, ISSUE_READ, ISSUE_WRITE, ISSUE_RSVD
and POLL (rules R100 to R104, R111, R113). -/

namespace Sys2Proof.Machine

/-- ISSUE_RESET (rule R102). With READY = 0 it takes ISSUE_BUSY (rule R223). -/
def execIssueReset (s : State) : Host.Outcome State Fault Refusal := .next (issue 0x00#8 s)

/-- ISSUE_READ (rule R103). -/
def execIssueRead (s : State) : Host.Outcome State Fault Refusal := .next (issue 0x20#8 s)

/-- ISSUE_WRITE with P (rule R104). -/
def execIssueWrite (p : Bool) (s : State) : Host.Outcome State Fault Refusal :=
  .next (issue (if p then 0x50#8 else 0x40#8) s)

/-- ISSUE_RSVD (rule R111): accepted like any command. The first tick of its sequence traps. -/
def execIssueRsvd (s : State) : Host.Outcome State Fault Refusal := .next (issue 0x60#8 s)

/-- POLL: `rd <- STEP` (rule R113), at any time. -/
def execPoll (rd : Reg) (s : State) : Host.Outcome State Fault Refusal :=
  .next (writeReg rd s.step s)

end Sys2Proof.Machine
end

