-- ==== Sys2Proof/Machine/Facade.lean ====
section
/-! DEFINITION. The pseudo-instructions of rule R83: `ow.wait` (rule R114) and the façade operations
`ow.reset`, `ow.wrbyte` and `ow.rdbyte` (rules R200 to R204). A step of any agent is atomic (rule
R12), and a pseudo-instruction makes many accesses: its meaning runs the expansion up to the first
access to OWSEQ, and leaves the lines after it as the Host's next lines. DESIGN CHOICE (log entry 34):
where the operand is itself one of the temporaries, the expansion decides and not the pseudocode. -/

namespace Sys2Proof.Machine

/-- One pass of the loop of rule R83: `ow.poll t; bit t2, t, 7`. -/
def pollPass (s : State) : State :=
  let s1 := writeReg .t s.step s
  writeReg .t2 (byteOfBit ((readReg .t s1).getLsbD 7)) s1

/-- `ow.wait rd` (rule R114): one pass of the loop. If READY is set the wait ends with `rd <- t[4]`,
and if it is not the loop is taken again (`bz t2, L`). -/
def execOwWait (rd : Reg) (s : State) : Host.Outcome State Fault Refusal :=
  let s1 := pollPass s
  .next (if readReg .t2 s1 = 0#8 then pushLines [.pseudo .wait rd] s1
    else writeReg rd (byteOfBit ((readReg .t s1).getLsbD 4)) s1)

/-- `ow.reset rd` (rule R202): `ow.issue reset`, and `ow.wait rd` is left to run. -/
def execOwReset (rd : Reg) (s : State) : Host.Outcome State Fault Refusal :=
  .next (issue 0x00#8 (pushLines [.pseudo .wait rd] s))

/-- `ow.wrbyte rs` (rule R203): `bit t, rs, 0; ow.issue write, t`. `ow.wait t3` and the lines of bits
1 to 7 are left to run. DESIGN CHOICE (log entry 34): each of those lines reads rs anew, so with rs = t,
t2 or t3 the bits after the first are those of what the wait has left there. -/
def execOwWrbyte (rs : Reg) (s : State) : Host.Outcome State Fault Refusal :=
  let s1 := pushLines (.pseudo .wait .t3 :: wrbyteLines rs 1 7)
    (writeReg .t (byteOfBit ((readReg rs s).getLsbD 0)) s)
  .next (issue (writeBitByte (readReg .t s1)) s1)

/-- `ow.rdbyte rd` (rule R204): `li rd, 0; ow.issue read`. `ow.wait t; shl t, t, 0; or rd, rd, t` and
the lines of bits 1 to 7 are left to run. DESIGN CHOICE (log entry 34): with rd = t or t2 the waits
overwrite the byte as it is put together, and rd does not end as the byte read. -/
def execOwRdbyte (rd : Reg) (s : State) : Host.Outcome State Fault Refusal :=
  .next (issue 0x20#8 (pushLines
    (.pseudo .wait .t :: .shl .t .t 0 :: .or rd rd .t :: rdbyteLines s.cfg.base rd 1 7)
    (writeReg rd 0#8 s)))

end Sys2Proof.Machine
end

