-- ==== Sys2Proof/Machine/Shift.lean ====
section
/-! DEFINITION. The Shift-Clock Engine's descriptors (rules R175 to R178): the capture rule of the
transfer that has just completed, and what rule R108 does after it. The two variants run the same
descriptors (rule R180). -/

namespace Sys2Proof.Machine

/-- `Continue(d, h)` (rule R178): start the transfer of the descriptor that PROG now points at. A
descriptor that is not terminal has a successor in every legal table (rule R117 condition 3). -/
def continueShift (s : State) : Host.Outcome State Fault Refusal :=
  match fetchDesc s with
  | none => .refused .illegalConfiguration
  | some c =>
    match patOf c with
    | none => .refused .illegalConfiguration
    | some p => .next (startXfer p s.now s)

/-- Rule R108 from `Perform` on, for a shift descriptor. -/
def runShift (capture : State → State) (t : Bool) (s : State) : Host.Outcome State Fault Refusal :=
  match s.cfg.engine with
  | .timer => .refused .otherBackend
  | .shiftIrq =>
    if t then .next (terminal (advanceProg (capture s))) else continueShift (advanceProg (capture s))
  | .shiftPoll =>
    if t then .next (terminal (advanceProg (capture s))) else continueShift (advanceProg (capture s))

/-- S_CAP_NONE (rule R177): the captured byte is discarded. -/
def execSCapNone (_pat : Byte) (t : Bool) (s : State) : Host.Outcome State Fault Refusal :=
  runShift (fun s => s) t s

/-- The sample instants of the transfer that has just completed (rule R174), cells `k` and up. -/
def sampleInstants (s : Nat) : Nat → Nat → List Nat
  | _, 0 => []
  | k, n + 1 => cellSample s k :: sampleInstants s (k + 1) n

/-- `STEP.RESULT <- STEP.RESULT OR (RXD ≠ 0xFF)` (rule R176). Each sampling instant of the transfer
is a presence sample (rule R119). -/
def captureOrLow (s : State) : State :=
  noteSamples .presence (sampleInstants s.xferStart 0 8)
    (setResult (resultCapOrLow s.result s.rxd) s)

/-- S_CAP_OR_LOW (rule R176). -/
def execSCapOrLow (_pat : Byte) (t : Bool) (s : State) : Host.Outcome State Fault Refusal :=
  runShift captureOrLow t s

/-- `STEP.RESULT <- RXD[BITSEL]` (rule R175). The read sample is the sampling instant of that bit, in
cell 7 − BITSEL (rules R120, R174). -/
def captureBit (bitsel : BitVec 3) (s : State) : State :=
  noteSamples .read [cellSample s.xferStart (7 - bitsel.toNat)]
    (setResult (resultCapBit s.rxd bitsel) s)

/-- S_CAP_BIT (rule R175). -/
def execSCapBit (_pat : Byte) (bitsel : BitVec 3) (t : Bool) (s : State) :
    Host.Outcome State Fault Refusal :=
  runShift (captureBit bitsel) t s

/-- S_RSVD: CAP = 0b11 is an illegal word, which the model refuses (rules R79, R117). -/
def execSRsvd (_rest : BitVec 6) (_pat : Byte) (_s : State) : Host.Outcome State Fault Refusal :=
  .refused .illegalDescriptor

end Sys2Proof.Machine
end

