-- ==== Sys2Proof/Machine/Timer.lean ====
section
/-! DEFINITION. The Timer-Tick Engine's descriptors (rules R140 to R145), each as `Perform(d, h)` and
what rule R108 does after it. The handler instant h is the clock's time. -/

namespace Sys2Proof.Machine

/-- Rule R108 from `Perform` on, for a timer descriptor: PROG advances, then the terminal step (rule
R110), or the reload that arms the next tick (rule R145). An illegal word is never executed (rule
R79), and only a TIMER instance has these descriptors (rule R80). -/
def runTimer (perform : State → State) (delay : BitVec 16) (t : Bool) (s : State) :
    Host.Outcome State Fault Refusal :=
  match s.cfg.engine with
  | .shiftIrq => .refused .otherBackend
  | .shiftPoll => .refused .otherBackend
  | .timer =>
    if delayMatchesT delay t then
      .next (if t then terminal (advanceProg (perform s))
        else reloadTimer delay.toNat (advanceProg (perform s)))
    else .refused .illegalDescriptor

/-- T_HOLD (rule R144): no effect of its own. -/
def execTHold (delay : BitVec 16) (t : Bool) (s : State) : Host.Outcome State Fault Refusal :=
  runTimer (fun s => s) delay t s

/-- T_DRIVE_LOW: `Drive(LOW)` (rule R140). -/
def execTDriveLow (delay : BitVec 16) (t : Bool) (s : State) : Host.Outcome State Fault Refusal :=
  runTimer (driveLine .low) delay t s

/-- T_RELEASE: `Drive(REL)` (rule R141). -/
def execTRelease (delay : BitVec 16) (t : Bool) (s : State) : Host.Outcome State Fault Refusal :=
  runTimer (driveLine .rel) delay t s

/-- `STEP.RESULT <- Sample()` (rule R142). -/
def performSampleSet (s : State) : State :=
  tookSample .read (setResult (resultSampleSet (sample s)) s)

/-- T_SAMPLE_SET (rule R142). -/
def execTSampleSet (delay : BitVec 16) (t : Bool) (s : State) : Host.Outcome State Fault Refusal :=
  runTimer performSampleSet delay t s

/-- `STEP.RESULT <- STEP.RESULT OR (Sample() = 0)` (rule R143). -/
def performSampleOr (s : State) : State :=
  tookSample .presence (setResult (resultSampleOr s.result (sample s)) s)

/-- T_SAMPLE_OR (rule R143). -/
def execTSampleOr (delay : BitVec 16) (t : Bool) (s : State) : Host.Outcome State Fault Refusal :=
  runTimer performSampleOr delay t s

/-- T_RSVD5: ACT = 0b101 is an illegal word, which the model refuses (rules R79, R117). -/
def execTRsvd5 (_rest : BitVec 29) (_s : State) : Host.Outcome State Fault Refusal :=
  .refused .illegalDescriptor

/-- T_RSVD6: ACT = 0b110 and 0b111 are illegal words, which the model refuses (rules R79, R117). -/
def execTRsvd6 (_rest : BitVec 29) (_b0 : Bool) (_s : State) : Host.Outcome State Fault Refusal :=
  .refused .illegalDescriptor

end Sys2Proof.Machine
end

