-- ==== Sys2Proof/Machine/Dispatch.lean ====
section
/-! DEFINITION. The meaning of every instruction: one arm per constructor of Instr. -/

namespace Sys2Proof.Machine

def exec (i : Instr) (s : State) : Host.Outcome State Fault Refusal :=
  match i with
  | .issueReset => Sys2Proof.Machine.execIssueReset s
  | .issueRead => Sys2Proof.Machine.execIssueRead s
  | .issueWrite p => Sys2Proof.Machine.execIssueWrite p s
  | .issueRsvd => Sys2Proof.Machine.execIssueRsvd s
  | .poll rd => Sys2Proof.Machine.execPoll rd s
  | .tHold delay t => Sys2Proof.Machine.execTHold delay t s
  | .tDriveLow delay t => Sys2Proof.Machine.execTDriveLow delay t s
  | .tRelease delay t => Sys2Proof.Machine.execTRelease delay t s
  | .tSampleSet delay t => Sys2Proof.Machine.execTSampleSet delay t s
  | .tSampleOr delay t => Sys2Proof.Machine.execTSampleOr delay t s
  | .tRsvd5 rest => Sys2Proof.Machine.execTRsvd5 rest s
  | .tRsvd6 rest b0 => Sys2Proof.Machine.execTRsvd6 rest b0 s
  | .sCapNone pat t => Sys2Proof.Machine.execSCapNone pat t s
  | .sCapOrLow pat t => Sys2Proof.Machine.execSCapOrLow pat t s
  | .sCapBit pat bitsel t => Sys2Proof.Machine.execSCapBit pat bitsel t s
  | .sRsvd rest pat => Sys2Proof.Machine.execSRsvd rest pat s
  | .owWait rd => Sys2Proof.Machine.execOwWait rd s
  | .owReset rd => Sys2Proof.Machine.execOwReset rd s
  | .owWrbyte rs => Sys2Proof.Machine.execOwWrbyte rs s
  | .owRdbyte rd => Sys2Proof.Machine.execOwRdbyte rd s

end Sys2Proof.Machine
end

