-- ==== Sys2Proof/Machine/Legality.lean ====
section
/-! DEFINITION. When a table configuration is legal: the nine conditions of rule R117. -/

namespace Sys2Proof.Machine

/-- A descriptor's instruction, where its word is legal and of the engine's own format (rule R117
condition 4, rules R79 and R80). -/
def legalDesc (engine : Engine) : Code → Option Instr
  | .tdesc w =>
    match engine, decodeTimer w with
    | .timer, .ok i => if i.wellFormed then some i else none
    | _, _ => none
  | .sdesc w =>
    match engine, decodeShift w with
    | .timer, _ => none
    | _, .ok i => if i.wellFormed then some i else none
    | _, _ => none
  | _ => none

/-- The bit T of a descriptor (rules R72, R73). -/
def isTerminal : Instr → Bool
  | .tHold _ t => t
  | .tDriveLow _ t => t
  | .tRelease _ t => t
  | .tSampleSet _ t => t
  | .tSampleOr _ t => t
  | .sCapNone _ t => t
  | .sCapOrLow _ t => t
  | .sCapBit _ _ t => t
  | _ => false

/-- ACT = SAMPLE_SET or CAP = CAP_BIT: the descriptor sets RESULT from the line. -/
def setsResult : Instr → Bool
  | .tSampleSet _ _ => true
  | .sCapBit _ _ _ => true
  | _ => false

/-- The descriptor writes RESULT (rule R29). -/
def writesResult : Instr → Bool
  | .tSampleSet _ _ => true
  | .tSampleOr _ _ => true
  | .sCapBit _ _ _ => true
  | .sCapOrLow _ _ => true
  | _ => false

/-- Whether the line is released after the descriptors, in order, given that it was before them
(`released`): the last DRIVE_LOW or RELEASE decides. -/
def releasedAfter : Bool → List Instr → Bool
  | released, [] => released
  | _, .tDriveLow _ _ :: rest => releasedAfter false rest
  | _, .tRelease _ _ :: rest => releasedAfter true rest
  | released, _ :: rest => releasedAfter released rest

/-- Condition 3: T = 1 on the last descriptor and on no other. -/
def onlyLastTerminal : List Instr → Bool
  | [] => false
  | [i] => isTerminal i
  | i :: j :: rest => !isTerminal i && onlyLastTerminal (j :: rest)

/-- Bit 0 of the last descriptor's PAT. -/
def lastPatReleases (is : List Instr) : Bool :=
  match is.getLast? with
  | some (.sCapNone pat _) => pat.getLsbD 0
  | some (.sCapOrLow pat _) => pat.getLsbD 0
  | some (.sCapBit pat _ _) => pat.getLsbD 0
  | _ => false

/-- Conditions 6 (TIMER) and 7 (SHIFT_*): the line is released at the end of the sequence. -/
def endsReleased (engine : Engine) (is : List Instr) : Bool :=
  match engine with
  | .timer => releasedAfter true is
  | .shiftIrq => lastPatReleases is
  | .shiftPoll => lastPatReleases is

/-- Conditions 2, 3, 4, 6 and 7 on one table: its instructions, where it meets them. -/
def legalTable (engine : Engine) (table : List Code) : Option (List Instr) :=
  match table.mapM (legalDesc engine) with
  | none => none
  | some is =>
    if 1 ≤ is.length ∧ is.length ≤ nMax ∧ onlyLastTerminal is ∧ endsReleased engine is then some is
    else none

/-- The table of one key, where it exists and meets the conditions on one table. -/
def legalTableAt (cfg : Config) (key : Key) : Option (List Instr) :=
  match lookupTable cfg key with
  | none => none
  | some table => legalTable cfg.engine table

/-- Rule R117: all nine conditions. Condition 1 is that there are four entries, all of them of the
four keys, and that each key has one. Condition 5 compares the step counts, 8 counts READ's
line-setting descriptors, and 9 is on the write tables. DEDUCED: no condition bars SAMPLE_SET or CAP_BIT
from RESET (log entry 28), or SAMPLE_OR or CAP_OR_LOW from READ (log entry 21), although rule R122 does
not hold for such tables, nor rules R208 and R209 for such a READ table (log entry 21). -/
def legalConfig (cfg : Config) : Bool :=
  match legalTableAt cfg keyReset, legalTableAt cfg keyRead, legalTableAt cfg keyWrite0,
      legalTableAt cfg keyWrite1 with
  | some reset, some read, some write0, some write1 =>
    cfg.tables.length == 4
      && cfg.tables.all (fun e => [keyReset, keyRead, keyWrite0, keyWrite1].contains e.1)
      && decide (read.length < reset.length)
      && write0.length == read.length && write1.length == read.length
      && read.countP setsResult == 1
      && !write0.any writesResult && !write1.any writesResult
  | _, _, _, _ => false

end Sys2Proof.Machine
end

