-- ==== Sys2Proof/Machine/Agents.lean ====
section
/-! DEFINITION. The agents of rule R12 and which of them moves next (rules R58, R59, R107): the Host's
step, the Sequencer's tick, and the platform's block reset. Every step has a time, and steps are
ordered by time. In Level A no times exist and any enabled agent may move (rule R107). -/

namespace Sys2Proof.Machine

/-- Who moves next. -/
inductive Turn where
  /-- A block reset at time `t`. -/
  | reset (t : Nat)
  /-- A Host step at time `t`. -/
  | host (t : Nat)
  /-- The tick's handler at instant `h`. -/
  | tick (h : Nat)
  /-- FAULT ≠ NONE: no agent has an enabled step (rule R224). -/
  | quiescent
  /-- No tick is armed and the Host has no further line. -/
  | idle
deriving DecidableEq, Repr

/-- The time of a step that is due at `t`: no step goes back in time, and in Level A all stand at the
clock's one value. -/
def due (s : State) (t : Nat) : Nat :=
  match s.cfg.level with
  | .timed => max s.now t
  | .untimed => s.now

/-- The instant h = NEXT_T + lat of the armed tick's handler (rule R107). -/
def tickTime (s : State) : Option Nat := if s.armed then some (due s (s.nextT + latency s)) else none

/-- The time of the Host's next step, where it has one. -/
def hostTime (s : State) : Option Nat :=
  match nextLine s with
  | none => none
  | some _ => if hostBlocked s then none else some (due s s.host.nextAt)

/-- The time of the next pending block reset. -/
def resetTime (s : State) : Option Nat :=
  match s.inputs.resets with
  | [] => none
  | t :: _ => some (due s t)

/-- The Host or the Sequencer, by time. At the same instant both orders are admitted (rule R59). DESIGN
CHOICE (log entry 30): nothing makes the tick move in the end, if the Host always comes first. -/
def agentTurn (s : State) : Turn :=
  match hostTime s, tickTime s with
  | none, none => .idle
  | some t, none => .host t
  | none, some h => .tick h
  | some t, some h =>
    if t < h then .host t
    else if h < t then .tick h
    else if tieHost s then .host t else .tick h

/-- The time of a turn, where it has one. -/
def Turn.time : Turn → Option Nat
  | .reset t => some t
  | .host t => some t
  | .tick h => some h
  | .quiescent => none
  | .idle => none

/-- Who moves next. A pending block reset moves when no other step comes before it. -/
def nextTurn (s : State) : Turn :=
  let other := if s.fault = .none then agentTurn s else .quiescent
  match resetTime s, other.time with
  | none, _ => other
  | some r, none => .reset r
  | some r, some t => if r ≤ t then .reset r else other

/-- A tie between the Host and a tick uses a draw. -/
def settleTie (s : State) : State :=
  match hostTime s, tickTime s with
  | some t, some h => if t = h then useTie s else s
  | _, _ => s

/-- The Sequencer's step starts: `ARMED <- 0`, this event is consumed (rules R108, R227). In Level A
of a shift engine the transfer is then complete (rule R109). -/
def enterTick (s : State) : State :=
  let s1 := useLat (disarm s)
  match s.cfg.level, s.cfg.engine with
  | .untimed, .shiftIrq => completeUntimed s1
  | .untimed, .shiftPoll => completeUntimed s1
  | _, _ => s1

/-- The tick (rule R108), at the handler instant, which the clock has reached. -/
def tickStep (s : State) : Host.Outcome State Fault Refusal :=
  let s1 := enterTick s
  match fetchDesc s1 with
  | none => .next (trap s1)
  | some c =>
    match decode c with
    | .ok i => exec i s1
    | .error _ => .refused .illegalDescriptor

/-- The Host's step starts: it moves past its line, and the time of its next one is drawn. -/
def enterHost (s : State) : State :=
  let s1 := passLine (useGap s)
  s1.setHost { s1.host with nextAt := s.now + hostGap s }

/-- One Host step (rules R58, R100), at the time the clock has reached. -/
def hostStep (op : HostOp) (s : State) : Host.Outcome State Fault Refusal :=
  let s1 := enterHost s
  match lineKind op s with
  | .inHost => .next (hostLocal op s1)
  | .notOwseq => .refused .badAccess
  | .code c =>
    match decode c with
    | .ok i => exec i s1
    | .error _ => .refused .illegalDescriptor

/-- The platform's block reset. No agent moves and no oracle is asked in a fault state (rule R224). -/
def resetStep (t : Nat) (s : State) : State :=
  blockReset (useReset (if s.fault = .none then advanceTo t s else s.setNow t))

/-- One turn. -/
def turnStep (turn : Turn) (s : State) : Host.Outcome State Fault Refusal :=
  match turn with
  | .quiescent => .fault .quiescent
  | .idle => .fault .noEnabledStep
  | .reset t => .next (resetStep t s)
  | .tick h => tickStep (advanceTo h (settleTie s))
  | .host t =>
    match nextLine s with
    | none => .fault .noEnabledStep
    | some op => hostStep op (advanceTo t (settleTie s))

/-- One step of the machine. A configuration that is not legal has no run at all (rule R117). -/
def runStep (s : State) : Host.Outcome State Fault Refusal :=
  if legalConfig s.cfg then turnStep (nextTurn s) s else .refused .illegalConfiguration

/-! ### Placing one instruction where the machine takes its next from -/

/-- The Host's next line is `op`, at once, and it goes before a tick of the same instant. -/
def placeLine (op : HostOp) (s : State) : State :=
  (s.setHost { s.host with micro := op :: s.host.micro, nextAt := s.now }).setInputs
    { s.inputs with ties := true :: s.inputs.ties }

/-- A RESET table with one descriptor replaced. -/
def tablesWith (engine : Engine) (n : Nat) (c : Code) : List (Key × List Code) :=
  match defaultTables engine with
  | (k, reset) :: rest => (k, reset.set n c) :: rest
  | [] => []

/-- STEP in the middle of a Reset-Pulse sequence, at descriptor `n`. -/
def stepInReset (n : Nat) : Byte := mkStep false opReset false (BitVec.ofNat 4 n)

/-- An instance of `engine` with the descriptor `c` at index `n` of its RESET table, a Reset-Pulse
sequence in flight that has come to it, and its tick due now, before a Host step of the same instant. -/
def placeDesc (engine : Engine) (n : Nat) (c : Code) (s : State) : State :=
  let cfg := { s.cfg with engine := engine, tables := tablesWith engine n c }
  let s1 := { s with cfg := cfg, step := stepInReset n, armed := true, nextT := s.now }
  s1.setInputs { s1.inputs with lats := 0 :: s1.inputs.lats, ties := false :: s1.inputs.ties }

/-- The shift engine of a configuration: its own, or SHIFT_IRQ for a TIMER instance. -/
def shiftEngineOf : Engine → Engine
  | .timer => .shiftIrq
  | .shiftIrq => .shiftIrq
  | .shiftPoll => .shiftPoll

/-- Put a word where the machine takes its next instruction from: a command word is the Host's next
write to STEP; a descriptor is in the RESET table, at the end if its T is 1 and at the start if not.
A transfer has just completed with that pattern, for a shift descriptor. -/
def placeCode (c : Code) (s : State) : State :=
  match c with
  | .cmd w => placeLine (.write s.cfg.base 1 w) s
  | .stat rd => placeLine (.read s.cfg.base 1 rd) s
  | .pseudo p reg => placeLine (.pseudo p reg) s
  | .tdesc w => placeDesc .timer (if w.getLsbD 3 then 4 else 0) c s
  | .sdesc w =>
    ((placeDesc (shiftEngineOf s.cfg.engine) (if w.getLsbD 15 then 13 else 0) c s).setTxd
      (w.extractLsb' 0 8)).setXferBusy false

/-- Put a table word where the machine takes its next instruction from. -/
def placeTableWord (nbits w : Nat) (s : State) : State :=
  match tableCode nbits w with
  | none => s
  | some c => placeCode c s

end Sys2Proof.Machine
end

