-- ==== Sys2Proof/Machine/Step.lean ====
section
/-! DEFINITION. The step of the machine, and where a word is put for the next step to run it. -/

namespace Sys2Proof.Machine

/-- One step: the next agent's atomic step (rules R12, R58). -/
def step (s : State) : Host.Outcome State Fault Refusal := runStep s

/-- The state with the instruction whose bits are `w` placed where `step` takes its next from. -/
def State.withFetchWord (s : State) (nbits w : Nat) : State := placeTableWord nbits w s

end Sys2Proof.Machine
end

