-- ==== Sys2Proof/Safety.lean ====
section
/-! DEFINITION. What counts as a legal start, an end of a run and a hang (rules R238, R256, R258), the
machine's invariants (rule R39), the slot timing (rules R118 to R121), the agreement of the engines (rule
R123), and what one tick and one issue leave, in the terms the statements use. -/

namespace Sys2Proof.Machine

/-! ### Launch, end and hang -/

/-- `CleanEntry` (rule R256), its clauses about state and the legal configuration, and that no transfer
is running (rule R257). No Host access is half done in any state, since each is one atomic step. -/
def cleanEntry (s : State) : Prop :=
  s.ready = true ∧ s.armed = false ∧ s.drive = .rel ∧ s.xferBusy = false ∧ s.trapped = false ∧
    s.fault = .none ∧ legalConfig s.cfg = true

/-- The end of a run (rule R258): no line left, READY, no trap and no fault. -/
def endOfRun (s : State) : Prop :=
  nextLine s = none ∧ s.ready = true ∧ s.trapped = false ∧ s.fault = .none

/-- What makes `ow.wait` never return (rule R238, cases 1 and 2). -/
def hangs (s : State) : Prop := s.trapped = true ∨ s.fault ≠ .none

/-- The step count N(key), where the key has a table (rule R105). -/
def stepCount (cfg : Config) (key : Key) : Option Nat := (lookupTable cfg key).map List.length

/-! ### Invariants -/

/-- Rule R39, its five clauses, where FAULT = NONE. -/
def r39 (s : State) : Prop :=
  (s.ready = true → s.armed = false ∧ s.trapped = false) ∧
  (s.trapped = true → s.ready = false ∧ s.armed = false) ∧
  (s.ready = false → s.trapped = false → s.armed = true) ∧
  (∀ n, stepCount s.cfg s.key = some n →
    s.prog.toNat ≤ n ∧ (s.ready = true → s.step = stepReset ∨ s.prog.toNat = n)) ∧
  (s.ready = true → s.drive = .rel)

/-- The instructions of a table before index `n`, as the decoder reads them. -/
def decodedUpTo (table : List Code) (n : Nat) : List Instr :=
  (table.take n).filterMap (fun c =>
    match decode c with
    | .ok i => some i
    | .error _ => none)

/-- The transfer in flight drives the line as rule R173 says, and its completion is the armed tick
(rule R31). -/
def xferRuns (s : State) : Prop :=
  s.xferStart ≤ s.now ∧ s.now < s.xferStart + tXfer ∧ s.nextT = s.xferStart + tXfer ∧
    s.drive = cellDrive s.txd ((s.now - s.xferStart) / tBit)

/-- The line and the backend of an instance with a tick armed: TIMER has driven what its descriptors
so far say, and SHIFT_* is in, or has just completed, the transfer of the descriptor at PROG. -/
def backendInStep (s : State) : Prop :=
  match s.cfg.engine with
  | .timer =>
    s.xferBusy = false ∧ ∀ table, lookupTable s.cfg s.key = some table →
      s.drive = driveOfBit (releasedAfter true (decodedUpTo table s.prog.toNat))
  | _ =>
    (∀ c, fetchDesc s = some c → patOf c = some s.txd) ∧
    (s.xferBusy = false → s.drive = cellDrive s.txd 7) ∧
    (s.xferBusy = true → s.cfg.level = .timed → xferRuns s)

/-- The invariant of the machine, which rule R39 follows from: what holds in every state that a run
reaches with FAULT = NONE. -/
def Invariant (s : State) : Prop :=
  s.fault = .none →
    (s.ready = true → s.armed = false ∧ s.trapped = false ∧ s.drive = .rel ∧ s.xferBusy = false ∧
      (s.step = stepReset ∨ stepCount s.cfg s.key = some s.prog.toNat)) ∧
    (s.trapped = true → s.ready = false ∧ s.armed = false ∧
      stepCount s.cfg s.key = none) ∧
    (s.ready = false → s.trapped = false → s.armed = true ∧ backendInStep s ∧
      ∀ n, stepCount s.cfg s.key = some n → s.prog.toNat < n)

/-! ### One tick, and a run of ticks -/

/-- The next tick, with no Host step before it. -/
def tickOnce (s : State) : Host.Outcome State Fault Refusal :=
  tickStep (advanceTo (due s (s.nextT + latency s)) s)

/-- `n` ticks, with no Host step between them. -/
def ticks : Nat → State → Host.Outcome State Fault Refusal
  | 0, s => .next s
  | n + 1, s =>
    match tickOnce s with
    | .next u => ticks n u
    | .fault r => .fault r
    | .refused r => .refused r

/-- RESULT at READY of sequences of `n` ticks each, in order, and the state after them. Each command is
issued the given time after the sequence before it has ended. -/
def sequencesRun (n : Nat) : List (Nat × Byte) → State → Option (List Bool × State)
  | [], s => some ([], s)
  | (gap, w) :: rest, s =>
    match ticks n (issue w (advanceTo (s.now + gap) s)) with
    | .next u => (sequencesRun n rest u).map (fun r => (u.result :: r.1, r.2))
    | .fault _ => none
    | .refused _ => none

/-! ### Slot timing (rules R118 to R121) -/

/-- The Reset-Pulse slot (rule R119). -/
def resetSlotMeets (sl : Slot) : Prop :=
  ∃ tL tR tE, sl.tL = some tL ∧ sl.tR = some tR ∧ sl.tE = some tE ∧
    tL + 480000 ≤ tR ∧ sl.presence ≠ [] ∧
    (∀ x ∈ sl.presence, tR + 60000 ≤ x ∧ x ≤ tR + 240000) ∧ tR + 480000 ≤ tE

/-- The Read-Bit slot (rule R120). -/
def readSlotMeets (sl : Slot) : Prop :=
  ∃ tL tR tE x, sl.tL = some tL ∧ sl.tR = some tR ∧ sl.tE = some tE ∧ sl.reads = [x] ∧
    tL + 1000 ≤ tR ∧ tR ≤ x ∧ x ≤ tL + 15000 ∧ sl.relow = false ∧ tL + 60000 ≤ tE

/-- The Write-Bit slot of the bit `p` (rule R121). -/
def writeSlotMeets (p : Bool) (sl : Slot) : Prop :=
  ∃ tL tR tE, sl.tL = some tL ∧ sl.tR = some tR ∧ sl.tE = some tE ∧ tL + 60000 ≤ tE ∧
    (p = false → tL + 60000 ≤ tR ∧ tR < tE) ∧
    (p = true → tL + 1000 ≤ tR ∧ tR ≤ tL + 15000 ∧ sl.relow = false)

/-- The slot of a sequence whose STEP at READY is `w`. -/
def slotMeets (w : Byte) (sl : Slot) : Prop :=
  (stepOp w = opReset → resetSlotMeets sl) ∧ (stepOp w = opRead → readSlotMeets sl) ∧
    (stepOp w = opWrite → writeSlotMeets (stepResult w) sl)

/-- `u` is the state at READY of a sequence that the command byte `w` starts from a CleanEntry state of
the configuration, for some Bus and some draw of handler latencies. -/
def sequenceEnds (cfg : Config) (w : Byte) (u : State) : Prop :=
  ∃ s n, s.cfg = cfg ∧ cleanEntry s ∧ stepCount cfg (keyOf (issuedStep w)) = some n ∧
    ticks n (issue w s) = .next u

/-- Conforming (rule R118): every sequence's slot meets rules R119 to R121, for every draw of handler
latencies in [0, L_MAX]. -/
def conforming (cfg : Config) : Prop :=
  ∀ w u, sequenceEnds cfg w u → slotMeets u.step u.slot

/-! ### Agreement of the engines (rule R123) -/

/-- PROTO (rule R123), for the operation `op` and the slot times of one sequence. `pulls` says which of
its two arms: the device answers the reset, or sends 0 in the read slot. A Write-Bit admits any Pull. -/
def inProto (op : BitVec 2) (tL tR tE : Nat) (p : Nat → Bool) (pulls : Bool) : Prop :=
  (op = opReset →
    if pulls then ∀ t, tR + 60000 ≤ t → t < tR + 95000 → p t = true
    else ∀ t, tR ≤ t → t < tE → p t = false) ∧
  (op = opRead →
    if pulls then ∀ t, tL ≤ t → t ≤ tL + 15000 → p t = true
    else ∀ t, tL ≤ t → t < tE → p t = false)

/-- The Pull of a completed sequence is in PROTO, in the arm `pulls`. -/
def slotInProto (u : State) (pulls : Bool) : Prop :=
  ∃ tL tR tE, u.slot.tL = some tL ∧ u.slot.tR = some tR ∧ u.slot.tE = some tE ∧
    inProto u.op tL tR tE (pull u.bus) pulls

/-- RESULT at READY agrees across two configurations, for every command and every Pull of PROTO (rule
R123). DEDUCED (log entry 32): each run has the Pull of its own slot, and the two are compared where the
device does the same in both. -/
def enginesAgree (cfg1 cfg2 : Config) : Prop :=
  ∀ w pulls u1 u2, sequenceEnds cfg1 w u1 → sequenceEnds cfg2 w u2 → slotInProto u1 pulls →
    slotInProto u2 pulls → u1.result = u2.result

/-- Rule R123, a requirement on configurations: two that are conforming agree. -/
def meetsR123 (cfg1 cfg2 : Config) : Prop :=
  conforming cfg1 → conforming cfg2 → enginesAgree cfg1 cfg2

/-! ### What a step leaves -/

/-- Everything but the Host and the draws is as before: an instruction of the Host that does not
write STEP. -/
def onlyHostChanged (s u : State) : Prop :=
  u.cfg = s.cfg ∧ u.now = s.now ∧ u.step = s.step ∧ u.drive = s.drive ∧ u.armed = s.armed ∧
    u.nextT = s.nextT ∧ u.cnt = s.cnt ∧ u.cntPhase = s.cntPhase ∧ u.txd = s.txd ∧ u.rxd = s.rxd ∧
    u.xferBusy = s.xferBusy ∧ u.xferStart = s.xferStart ∧ u.trapped = s.trapped ∧
    u.fault = s.fault ∧ u.bus = s.bus ∧ u.slot = s.slot ∧ u.inputs = s.inputs

/-- Every host register but those of the list is as before. -/
def regsKept (changed : List Reg) (s u : State) : Prop :=
  ∀ r, r ∉ changed → readReg r u = readReg r s

/-- The Host's place in its program is as before. -/
def placeKept (s u : State) : Prop :=
  u.host.prog = s.host.prog ∧ u.host.pc = s.host.pc ∧ u.host.nextAt = s.host.nextAt

/-- What no command and no descriptor changes: the configuration, the clock, FAULT and TRAPPED. -/
def engineFrame (s u : State) : Prop :=
  u.cfg = s.cfg ∧ u.now = s.now ∧ u.fault = s.fault ∧ u.trapped = s.trapped

/-- The backend's state after an accepted command (rules R101, R146, R171, R172), on an instance
whose clock stands at `s.now`. The other backend's registers are as before. -/
def primed (s u : State) : Prop :=
  u.armed = true ∧ u.rxd = s.rxd ∧
  (s.cfg.engine = .timer →
    u.cnt = 0xFFFE#16 ∧ u.cntPhase = atLevel s.cfg.level s.now s.cntPhase ∧
      u.drive = s.drive ∧ u.txd = s.txd ∧ u.xferBusy = s.xferBusy ∧ u.xferStart = s.xferStart ∧
      u.nextT = atLevel s.cfg.level (s.now + 2000) s.nextT) ∧
  (s.cfg.engine ≠ .timer →
    u.xferBusy = true ∧ u.cnt = s.cnt ∧ u.cntPhase = s.cntPhase ∧ u.drive = cellDrive u.txd 0 ∧
      (∀ c p, lookupDesc s.cfg u.key 0 = some c → patOf c = some p → u.txd = p) ∧
      (lookupTable s.cfg u.key = none → u.txd = 0xFF#8) ∧
      (u.xferStart = atLevel s.cfg.level (s.now) s.xferStart) ∧
      u.nextT = atLevel s.cfg.level (s.now + 72000) s.nextT)

/-- What the tick of a descriptor with the bit T leaves in STEP and ARMED (rules R25, R108, R110). -/
def tickedStep (t : Bool) (s u : State) : Prop :=
  u.ready = (t || s.ready) ∧ u.op = s.op ∧ u.prog = s.prog + 1#4 ∧ u.armed = !t

/-- What the tick of a timer descriptor leaves besides STEP and DRIVE: the reload (rule R145), or
nothing at the terminal step. The shift backend's registers are the other backend's. -/
def timerTicked (delay : BitVec 16) (t : Bool) (s u : State) : Prop :=
  (u.cnt = if t then s.cnt else BitVec.ofNat 16 (2 ^ 16 - delay.toNat)) ∧
  (u.cntPhase = if t then s.cntPhase else atLevel s.cfg.level s.now s.cntPhase) ∧
  (u.nextT = if t then s.nextT
    else atLevel s.cfg.level (s.now + delay.toNat * 1000) s.nextT) ∧
  u.txd = s.txd ∧ u.rxd = s.rxd ∧ u.xferBusy = s.xferBusy ∧ u.xferStart = s.xferStart ∧
  u.host = s.host ∧ engineFrame s u

/-- What the tick of a shift descriptor leaves besides RESULT: at the terminal step the peripheral
and the line are as before, and otherwise the transfer of the pattern `p` has started (rules R172,
R178). -/
def shiftTicked (p : Byte) (t : Bool) (s u : State) : Prop :=
  u.rxd = s.rxd ∧ u.cnt = s.cnt ∧ u.cntPhase = s.cntPhase ∧ u.host = s.host ∧ engineFrame s u ∧
  (t = true → u.txd = s.txd ∧ u.xferBusy = s.xferBusy ∧ u.xferStart = s.xferStart ∧
    u.drive = s.drive ∧ u.nextT = s.nextT) ∧
  (t = false → u.txd = p ∧ u.xferBusy = true ∧ u.drive = cellDrive p 0 ∧
    (u.xferStart = atLevel s.cfg.level (s.now) s.xferStart) ∧
    u.nextT = atLevel s.cfg.level (s.now + 72000) s.nextT)

/-- What an accepted command leaves of the Bus: each device has seen the operation (rule R207), what it
pulled before it pulls still, and the timer's priming does not touch the line. -/
def devicesIssued (op : BitVec 2) (s u : State) : Prop :=
  u.bus.free = s.bus.free ∧ u.bus.responders = s.bus.responders.map (Responder.onIssue op) ∧
    s.bus.pulls <+: u.bus.pulls ∧ (s.cfg.engine = .timer → u.bus.pulls = s.bus.pulls)

/-- What a tick leaves of the Bus: at the terminal step each device has seen the sequence end, and
what it pulled before it pulls still. -/
def devicesTicked (t : Bool) (s u : State) : Prop :=
  u.bus.free = s.bus.free ∧ s.bus.pulls <+: u.bus.pulls ∧
    u.bus.responders = if t then s.bus.responders.map (Responder.onReady u.op u.result)
      else s.bus.responders

/-- The same state on an instance whose engine is the other shift variant (rule R180). -/
def asPoll (s : State) : State := { s with cfg := { s.cfg with engine := .shiftPoll } }

/-! ### Legal words and configurations, in the words of rules R76, R77, R79 and R117 -/

/-- A legal TDESC32 word (rules R76, R79): no reserved bit, ACT below 5, and DELAY = 0 exactly when
T = 1. -/
def legalTimerWord (w : BitVec 32) : Prop :=
  w.extractLsb' 4 12 = 0#12 ∧ (w.extractLsb' 0 3).toNat < 5 ∧
    (w.getLsbD 3 = true ↔ w.extractLsb' 16 16 = 0#16)

/-- A legal SDESC16 word (rules R77, R79): no reserved bit, CAP not 3, and BITSEL = 0 unless CAP is
CAP_BIT. -/
def legalShiftWord (w : BitVec 16) : Prop :=
  w.extractLsb' 13 2 = 0#2 ∧ w.extractLsb' 8 2 ≠ 3#2 ∧
    (w.extractLsb' 10 3 ≠ 0#3 → w.extractLsb' 8 2 = 2#2)

/-- A legal word of the engine's own format (rule R80). -/
def legalWord (engine : Engine) : Code → Prop
  | .tdesc w => engine = .timer ∧ legalTimerWord w
  | .sdesc w => engine ≠ .timer ∧ legalShiftWord w
  | _ => False

/-- The bit T of a descriptor word. -/
def wordT : Code → Bool
  | .tdesc w => w.getLsbD 3
  | .sdesc w => w.getLsbD 15
  | _ => false

/-- The field ACT of a TDESC32 word. -/
def wordAct : Code → Option (BitVec 3)
  | .tdesc w => some (w.extractLsb' 0 3)
  | _ => none

/-- The field CAP of a SDESC16 word. -/
def wordCap : Code → Option (BitVec 2)
  | .sdesc w => some (w.extractLsb' 8 2)
  | _ => none

/-- Conditions 2, 3, 4, 6 and 7 of rule R117, on one table. -/
def rule117Table (engine : Engine) (table : List Code) : Prop :=
  (1 ≤ table.length ∧ table.length ≤ 15) ∧
  (∀ (n : Nat) c, table[n]? = some c → wordT c = decide (n + 1 = table.length)) ∧
  (∀ c ∈ table, legalWord engine c) ∧
  (engine = .timer → ∀ (n : Nat) c, table[n]? = some c → wordAct c = some 1#3 →
    ∃ (m : Nat) (d : Code), n < m ∧ table[m]? = some d ∧ wordAct d = some 2#3) ∧
  (engine ≠ .timer → ∀ c p, table.getLast? = some c → patOf c = some p → p.getLsbD 0 = true)

/-- The nine conditions of rule R117. -/
def rule117 (cfg : Config) : Prop :=
  (∀ key, (lookupTable cfg key).isSome = true ↔ key ∈ [keyReset, keyRead, keyWrite0, keyWrite1]) ∧
  (∀ key table, lookupTable cfg key = some table → rule117Table cfg.engine table) ∧
  (∃ n1 n2, stepCount cfg keyReset = some n1 ∧ stepCount cfg keyRead = some n2 ∧
    stepCount cfg keyWrite0 = some n2 ∧ stepCount cfg keyWrite1 = some n2 ∧ n2 < n1) ∧
  (∀ table, lookupTable cfg keyRead = some table →
    table.countP (fun c => wordAct c == some 3#3 || wordCap c == some 2#2) = 1) ∧
  (∀ key table, key = keyWrite0 ∨ key = keyWrite1 → lookupTable cfg key = some table →
    ∀ c ∈ table, wordAct c ≠ some 3#3 ∧ wordAct c ≠ some 4#3 ∧ wordCap c ≠ some 1#2 ∧
      wordCap c ≠ some 2#2)

/-! ### The façade's discipline (rules R205, R260) -/

/-- A line of a host program that reaches OWSEQ, if at all, only through a pseudo-instruction or a
read. -/
def isFacadeLine : HostOp → Bool
  | .write _ _ _ => false
  | .writeBit _ => false
  | _ => true

/-- Whether lines, run in order from a STEP with READY = `ready`, issue only after an `ow.wait` has
seen READY = 1, and leave READY = 1 seen at their end. -/
def paced : Bool → List HostOp → Bool
  | ready, [] => ready
  | _, .pseudo .wait _ :: rest => paced true rest
  | ready, .pseudo .reset _ :: rest => ready && paced true rest
  | ready, .pseudo .wrbyte _ :: rest => ready && paced true rest
  | ready, .pseudo .rdbyte _ :: rest => ready && paced true rest
  | ready, .write _ _ _ :: rest => ready && paced false rest
  | ready, .writeBit _ :: rest => ready && paced false rest
  | ready, _ :: rest => paced ready rest

/-- A host that reaches OWSEQ only through the façade, at any point of its program (rule R205). -/
def facadeHost (s : State) : Prop :=
  s.fault = .none ∧ paced s.ready s.host.micro = true ∧ s.host.prog.all isFacadeLine = true

end Sys2Proof.Machine
end

