-- ==== Sys2Proof/Certificates/Slice0/Obligations.lean ====
section
/-! DEFINITION. The statements about the model, for the provers: what each rule of the spec says the
machine does, over every state, every operand and every configuration. OBLIGATIONS.json gives each
one's title, rules and tier; Tests/Slice0.lean holds a witness of each one's hypotheses. -/

open Sys2Proof Sys2Proof.Machine

/-! ### Encodings (rules R70 to R81) -/

/-- Decode and encode agree, for every instruction and every operand (rules R70 to R77, R81). -/
def Obligations.DecodeOfEncodedInstr : Prop := ∀ i : Instr, decode (encode i) = .ok i

/-- No bit of a descriptor word is dropped: it is the word of the instruction it decodes to (rules
R72, R73, R76, R77). -/
def Obligations.DescriptorReencodes : Prop :=
  (∀ w i, decodeTimer w = .ok i → encode i = .tdesc w) ∧
  (∀ w i, decodeShift w = .ok i → encode i = .sdesc w)

/-- No word of one format fits two rows of the opcode map (rule R81). -/
def Obligations.OpcodeMapUnambiguous : Prop :=
  ∀ r ∈ opcodeMap, ∀ r' ∈ opcodeMap, ∀ w : BitVec 32,
    r.format = r'.format → r.fits w = true → r'.fits w = true → r = r'

/-- The decoder answers a row's instruction exactly for the words that fit the row (rule R81). -/
def Obligations.DecoderFollowsOpcodeMap : Prop :=
  ∀ c f b, Code.formatAndBits c = some (f, b) → ∀ r ∈ opcodeMap, r.format = f →
    (r.fits b = true ↔ ∃ i, decode c = .ok i ∧ i.mnemonic = r.mnemonic)

/-- Words of every format that the spec writes out, with the instruction each stands for (rules R111, R140 to R144, R175 to R177 and the vectors V1, V4 and V8). -/
def Obligations.SpecWordsDecode : Prop :=
  decode (.cmd 0x9F#8) = .ok .issueReset ∧ decode (.cmd 0xB5#8) = .ok .issueRead ∧
  decode (.cmd 0xCF#8) = .ok (.issueWrite false) ∧ decode (.cmd 0x5F#8) = .ok (.issueWrite true) ∧
  decode (.cmd 0x70#8) = .ok .issueRsvd ∧
  decode (.tdesc 0x00360000#32) = .ok (.tHold 54#16 false) ∧
  decode (.tdesc 0x01E00001#32) = .ok (.tDriveLow 480#16 false) ∧
  decode (.tdesc 0xFFFF0002#32) = .ok (.tRelease 65535#16 false) ∧
  decode (.tdesc 0x00350003#32) = .ok (.tSampleSet 53#16 false) ∧
  decode (.tdesc 0x015E0004#32) = .ok (.tSampleOr 350#16 false) ∧
  decode (.tdesc 0x00000008#32) = .ok (.tHold 0#16 true) ∧
  decode (.tdesc 0x00010010#32) = .error .reservedTimerBits ∧
  decode (.sdesc 0x80FF#16) = .ok (.sCapNone 0xFF#8 true) ∧
  decode (.sdesc 0x01FF#16) = .ok (.sCapOrLow 0xFF#8 false) ∧
  decode (.sdesc 0x9A7F#16) = .ok (.sCapBit 0x7F#8 6#3 true) ∧
  decode (.sdesc 0x20FF#16) = .error .reservedShiftBits ∧
  decode (.sdesc 0x04FF#16) = .error .reservedShiftBits

/-- Rule R75: OP = w[6:5] chooses the command and P = w[4] counts only for OP = WRITE; no other bit
of the word has a meaning. -/
def Obligations.CommandOperands : Prop :=
  ∀ w : Byte, decodeCmd w =
    if w.extractLsb' 5 2 = 0b00#2 then .issueReset
    else if w.extractLsb' 5 2 = 0b01#2 then .issueRead
    else if w.extractLsb' 5 2 = 0b10#2 then .issueWrite (w.getLsbD 4)
    else .issueRsvd

/-- Rule R79: the illegal descriptor words, for each engine's own format; a table that holds one is
not a legal configuration, and the machine refuses it, so that such a word is never executed. -/
def Obligations.IllegalDescriptorWords : Prop :=
  (∀ w : BitVec 32, (legalDesc .timer (.tdesc w)).isSome = true ↔ legalTimerWord w) ∧
  (∀ e (w : BitVec 16), e ≠ .timer →
    ((legalDesc e (.sdesc w)).isSome = true ↔ legalShiftWord w)) ∧
  (∀ s : State, ∀ key table c, (key, table) ∈ s.cfg.tables → c ∈ table →
    legalDesc s.cfg.engine c = none →
    legalConfig s.cfg = false ∧ step s = .refused .illegalConfiguration)

/-- Rule R74: the table key of every STEP value, the values that never occur, and the step counts of
the default tables. -/
def Obligations.KeySelectsTable : Prop :=
  (∀ w : Byte, keyOf w = stepOp w ++ (if stepOp w = 0b10#2 then w.extractLsb' 4 1 else 0#1)) ∧
  (∀ w : Byte, keyOf w ≠ 0b001#3 ∧ keyOf w ≠ 0b011#3 ∧ keyOf w ≠ 0b111#3) ∧
  (stepCount (defaultConfig .timer) 0b000#3 = some 5 ∧
    stepCount (defaultConfig .timer) 0b010#3 = some 4 ∧
    stepCount (defaultConfig .timer) 0b100#3 = some 4 ∧
    stepCount (defaultConfig .timer) 0b101#3 = some 4 ∧
    stepCount (defaultConfig .timer) 0b110#3 = none) ∧
  (∀ e, e ≠ .timer → stepCount (defaultConfig e) 0b000#3 = some 14 ∧
    stepCount (defaultConfig e) 0b010#3 = some 1 ∧ stepCount (defaultConfig e) 0b100#3 = some 1 ∧
    stepCount (defaultConfig e) 0b101#3 = some 1 ∧ stepCount (defaultConfig e) 0b110#3 = none)

/-- A configuration is legal exactly when the nine conditions of rule R117 hold and its list of tables
has four entries, one for each key (the model's choice, log entry 22), and the machine refuses an
illegal one. Condition 6 is met by a table that never drives (the model's reading, log entry 20). -/
def Obligations.LegalConfigIsRule117 : Prop :=
  (∀ cfg, legalConfig cfg = true ↔ rule117 cfg ∧ cfg.tables.length = 4) ∧
  (∀ s : State, legalConfig s.cfg = false → step s = .refused .illegalConfiguration)

/-! ### Block reset (rules R35, R38, R250 to R253) -/

/-- Rule R38: the values that the spec gives for the state after block reset, in the state a run
starts from and after a block reset of any state. -/
def Obligations.BlockResetValues : Prop :=
  ∀ s : State, ∀ u ∈ [State.reset, blockReset s],
    u.step = 0x80#8 ∧ u.ready = true ∧ u.op = 0b00#2 ∧ u.result = false ∧ u.prog = 0#4 ∧
      u.drive = .rel ∧ u.armed = false ∧ u.xferBusy = false ∧ u.trapped = false ∧ u.fault = .none

/-- A block reset recovers from any state: a sequence in flight is dropped and the line released, a
trapped state and a fault state are left, and the Bus and the host program are not reset (rules R224,
R231, R250, R251). An `ow.wait` then returns at once with 0 (rule R253). A block reset pending in a fault
state moves at once. When a block reset moves, and that the Host is kept, is the model's choice (log
entry 11). So is the Bus: it is as the clock's advance to the reset leaves it, or as before in a fault
state, and no responder answers the release that the reset makes (log entry 31). -/
def Obligations.BlockResetRecovers : Prop :=
  (∀ (s : State) (t : Nat), legalConfig s.cfg = true → nextTurn s = .reset t →
    ∃ u, step s = .next u ∧ u.step = 0x80#8 ∧ u.drive = .rel ∧ u.armed = false ∧
      u.xferBusy = false ∧ u.trapped = false ∧ u.fault = .none ∧ u.cfg = s.cfg ∧
      u.host = s.host ∧ u.inputs = { s.inputs with resets := s.inputs.resets.tail } ∧
      u.bus = (if s.fault = .none then (advanceTo t s).bus else s.bus) ∧
      ∀ rd, ∃ v, exec (.owWait rd) u = .next v ∧ readReg rd v = 0#8) ∧
  ∀ (s : State) (r : Nat) (rest : List Nat) (rd : Reg), legalConfig s.cfg = true →
    s.inputs.resets = r :: rest → s.fault ≠ .none →
    ∃ u v, step s = .next u ∧ u.step = 0x80#8 ∧ u.drive = .rel ∧ u.armed = false ∧
      u.xferBusy = false ∧ u.trapped = false ∧ u.fault = .none ∧ u.cfg = s.cfg ∧
      u.bus = s.bus ∧ u.host = s.host ∧ u.inputs.resets = rest ∧
      exec (.owWait rd) u = .next v ∧ readReg rd v = 0#8

/-- Nothing but block reset clears TRAPPED or FAULT (rules R35, R231, R250). -/
def Obligations.OnlyBlockResetClears : Prop :=
  ∀ s u : State, step s = .next u → (∃ t, nextTurn s = .reset t ∧ u = resetStep t s) ∨
    ((s.trapped = true → u.trapped = true) ∧ s.fault = .none)

/-! ### The host's commands and the host read (rules R100 to R104, R111, R113, R223) -/

/-- With READY = 1 every command runs: STEP is written whole, the backend is primed, and nothing
else of OWSEQ or of the Host changes (rules R101 to R104, R111, R146, R171). Level A's drive and the
Bus are the model's (log entries 8 and 18). -/
def Obligations.IssueStartsSequence : Prop :=
  ∀ s : State, s.ready = true → ∀ (i : Instr) (w : Byte), (i, w) ∈ [(Instr.issueReset, 0x00#8),
      (.issueRead, 0x20#8), (.issueWrite false, 0x40#8), (.issueWrite true, 0x50#8),
      (.issueRsvd, 0x60#8)] →
    ∃ u, exec i s = .next u ∧ u.step = w ∧ primed s u ∧ engineFrame s u ∧
      devicesIssued (w.extractLsb' 5 2) s u ∧ u.host = s.host ∧ u.inputs = s.inputs

/-- With READY = 0 a command raises ISSUE_BUSY, and the write changes nothing but FAULT (rules R101,
R116, R223); a façade operation that starts then raises it too (rules R202 to R204). -/
def Obligations.IssueWhileBusyFaults : Prop :=
  ∀ s : State, s.ready = false →
    (∀ i ∈ [Instr.issueReset, .issueRead, .issueWrite false, .issueWrite true, .issueRsvd],
      exec i s = .next { s with fault := .issueBusy }) ∧
    (∀ reg : Reg, ∀ i ∈ [Instr.owReset reg, .owWrbyte reg, .owRdbyte reg],
      ∃ u, exec i s = .next u ∧ u.fault = .issueBusy ∧
        onlyHostChanged s { u with fault := s.fault })

/-- The written byte is taken as a command and never stored as given: READY, OP, RESULT and PROG
after it are those that rule R101 gives, for every byte (rules R26, R70, R78, R101). Level A's drive
and the Bus are the model's (log entries 8 and 18). -/
def Obligations.WrittenByteIssues : Prop :=
  ∀ (w : Byte) (s : State), s.ready = true → ∃ u, decode (.cmd w) = .ok (decodeCmd w) ∧
    exec (decodeCmd w) s = .next u ∧ u.ready = false ∧ u.op = w.extractLsb' 5 2 ∧
    u.result = (if w.extractLsb' 5 2 = 0b10#2 then w.getLsbD 4 else false) ∧ u.prog = 0#4 ∧
    u.armed = true ∧ primed s u ∧ devicesIssued (w.extractLsb' 5 2) s u

/-- Rule R113: a host read decodes to POLL, which answers STEP at any time, in any state, and changes
one host register only, so that a second read answers the same byte. -/
def Obligations.PollReadsStep : Prop :=
  ∀ (rd : Reg) (s : State), decode (.stat rd) = .ok (.poll rd) ∧
    ∃ u, exec (.poll rd) s = .next u ∧ readReg rd u = s.step ∧ u.step = s.step ∧
      onlyHostChanged s u ∧ regsKept [rd] s u ∧ placeKept s u ∧ u.host.micro = s.host.micro

/-! ### The pseudo-instructions (rules R83, R114, R200 to R204) -/

/-- `ow.wait rd` with READY = 1 ends with RESULT in rd; with READY = 0 it is left to run again, and
it changes nothing but the temporaries (rules R83, R114). One pass a step is the model's reading
(log entry 7). -/
def Obligations.OwWaitPolls : Prop :=
  ∀ (rd : Reg) (s : State),
    (s.ready = true → ∃ u, exec (.owWait rd) s = .next u ∧
      readReg rd u = (if s.result then 1#8 else 0#8) ∧ onlyHostChanged s u ∧
      regsKept [rd, .t, .t2] s u ∧ placeKept s u ∧ u.host.micro = s.host.micro) ∧
    (s.ready = false → ∃ u, exec (.owWait rd) s = .next u ∧ readReg .t u = s.step ∧
      readReg .t2 u = 0#8 ∧ onlyHostChanged s u ∧ regsKept [.t, .t2] s u ∧ placeKept s u ∧
      u.host.micro = .pseudo .wait rd :: s.host.micro)

/-- `ow.reset rd` issues RESET and is then `ow.wait rd` (rules R83, R146, R171, R202, R207). Where the
step ends is the model's reading (log entry 7), and so are the Bus and Level A's drive (log entries 8
and 18). -/
def Obligations.OwResetIssues : Prop :=
  ∀ (rd : Reg) (s : State), s.ready = true → ∃ u, exec (.owReset rd) s = .next u ∧
    u.step = 0x00#8 ∧ primed s u ∧ engineFrame s u ∧ devicesIssued 0b00#2 s u ∧
    u.inputs = s.inputs ∧ regsKept [] s u ∧ placeKept s u ∧
    u.host.micro = .pseudo .wait rd :: s.host.micro

/-- `ow.wrbyte rs` issues a Write-Bit of bit 0 of rs, and leaves the wait and the lines of bits 1 to
7 to run, least-significant bit first (rules R83, R146, R171, R201, R203, R207). Where the step ends is
the model's reading (log entry 7), and so are the Bus and Level A's drive (log entries 8 and 18). With
rs a temporary the later lines do not send the byte first held there (log entry 34). -/
def Obligations.OwWrbyteIssues : Prop :=
  ∀ (rs : Reg) (s : State), s.ready = true → ∃ u, exec (.owWrbyte rs) s = .next u ∧
    u.step = (if (readReg rs s).getLsbD 0 then 0x50#8 else 0x40#8) ∧ primed s u ∧
    engineFrame s u ∧ devicesIssued 0b10#2 s u ∧ u.inputs = s.inputs ∧ regsKept [.t] s u ∧
    placeKept s u ∧ readReg .t u = (if (readReg rs s).getLsbD 0 then 1#8 else 0#8) ∧
    u.host.micro = HostOp.pseudo .wait .t3 :: (List.range' 1 7).flatMap
      (fun i => [.bit .t rs i, .writeBit .t, .pseudo .wait .t3]) ++ s.host.micro

/-- `ow.rdbyte rd` clears rd and issues READ, and leaves the rest of bit 0 and the lines of bits 1
to 7 to run: bit i read goes to bit i of rd (rules R83, R146, R171, R201, R204, R207). Where the step
ends is the model's reading (log entry 7), and so are the Bus and Level A's drive (log entries 8 and
18). With rd = t or t2 the later lines do not leave the byte read (log entry 34). -/
def Obligations.OwRdbyteIssues : Prop :=
  ∀ (rd : Reg) (s : State), s.ready = true → ∃ u, exec (.owRdbyte rd) s = .next u ∧
    u.step = 0x20#8 ∧ primed s u ∧ engineFrame s u ∧ devicesIssued 0b01#2 s u ∧
    u.inputs = s.inputs ∧ regsKept [rd] s u ∧ placeKept s u ∧ readReg rd u = 0#8 ∧
    u.host.micro = [HostOp.pseudo .wait .t, .shl .t .t 0, .or rd rd .t] ++
      (List.range' 1 7).flatMap (fun i => [.write s.cfg.base 1 0x20#8, .pseudo .wait .t,
        .shl .t .t i, .or rd rd .t]) ++ s.host.micro

/-- The host's own lines have the obvious meaning on bytes and do not reach OWSEQ (rule R82): a line that
computes leaves the Host's place and its pending lines too. A bit above 7, a shift by 8 or more and `dec`
of 0 are the model's choice (log entry 33). Labels
and registers are the model's choice (log entries 4 and 6). -/
def Obligations.HostLocalLines : Prop :=
  ∀ (s : State) (rd rs rt : Reg) (imm : Byte) (i : Nat) (label : Nat),
    (∀ op v, (op, v) ∈ [(HostOp.li rd imm, imm),
        (.bit rd rs i, if (readReg rs s).getLsbD i then 1#8 else 0#8),
        (.or rd rs rt, readReg rs s ||| readReg rt s), (.shl rd rs i, readReg rs s <<< i),
        (.dec rd, readReg rd s - 1#8)] →
      readReg rd (hostLocal op s) = v ∧ onlyHostChanged s (hostLocal op s) ∧
        regsKept [rd] s (hostLocal op s) ∧ placeKept s (hostLocal op s) ∧
        (hostLocal op s).host.micro = s.host.micro) ∧
    hostLocal (.bnz rs label) s =
      (if readReg rs s = 0#8 then s else { s with host := { s.host with pc := label } }) ∧
    hostLocal (.bz rs label) s =
      (if readReg rs s = 0#8 then { s with host := { s.host with pc := label } } else s)

/-- The host's access of another width or at another address is refused: it is no OWSEQ step (rules
R50, R56, R225). The refusal is the model's reading (log entry 24). -/
def Obligations.BadAccessRefused : Prop :=
  ∀ (s : State) (t addr width : Nat) (v : Byte) (rd : Reg) (op : HostOp),
    legalConfig s.cfg = true → nextTurn s = .host t → nextLine s = some op →
    op = .write addr width v ∨ op = .read addr width rd → addr ≠ s.cfg.base ∨ width ≠ 1 →
    step s = .refused .badAccess

/-! ### The timer's descriptors (rules R108, R110, R140 to R145) -/

/-- T_HOLD does nothing to the line or to RESULT (rule R144). What the devices see of the end is rule
R207's, and the model's Bus (log entry 8). -/
def Obligations.THoldTick : Prop :=
  ∀ (s : State) (delay : BitVec 16) (t : Bool), s.cfg.engine = .timer →
    (t = true ↔ delay = 0#16) →
    ∃ u, exec (.tHold delay t) s = .next u ∧ u.drive = s.drive ∧ u.result = s.result ∧
      tickedStep t s u ∧ timerTicked delay t s u ∧ devicesTicked t s u ∧
      u.bus.pulls = s.bus.pulls ∧ u.inputs = s.inputs

/-- T_DRIVE_LOW pulls the line low, whatever a device does (rule R140). What the devices see of the end
is rule R207's, and the model's Bus (log entry 8). -/
def Obligations.TDriveLowTick : Prop :=
  ∀ (s : State) (delay : BitVec 16) (t : Bool), s.cfg.engine = .timer →
    (t = true ↔ delay = 0#16) →
    ∃ u, exec (.tDriveLow delay t) s = .next u ∧ u.drive = .low ∧
      (∀ b x, lineLevel u.drive b x = false) ∧ u.result = s.result ∧
      tickedStep t s u ∧ timerTicked delay t s u ∧ devicesTicked t s u ∧ u.inputs = s.inputs

/-- T_RELEASE releases the line: it is then low exactly where a device pulls (rule R141). What the
devices see of the end is rule R207's, and the model's Bus (log entry 8). -/
def Obligations.TReleaseTick : Prop :=
  ∀ (s : State) (delay : BitVec 16) (t : Bool), s.cfg.engine = .timer →
    (t = true ↔ delay = 0#16) →
    ∃ u, exec (.tRelease delay t) s = .next u ∧ u.drive = .rel ∧
      (∀ b x, lineLevel u.drive b x = !pull b x) ∧ u.result = s.result ∧
      tickedStep t s u ∧ timerTicked delay t s u ∧ devicesTicked t s u ∧ u.inputs = s.inputs

/-- T_SAMPLE_SET sets RESULT to the line's level at the handler instant, or in Level A to a free
draw (rules R109, R142). Where the draws stand is the model's choice (log entry 10), and what the
devices see of the end is rule R207's and the model's Bus (log entry 8). -/
def Obligations.TSampleSetTick : Prop :=
  ∀ (s : State) (delay : BitVec 16) (t : Bool), s.cfg.engine = .timer →
    (t = true ↔ delay = 0#16) →
    ∃ u, exec (.tSampleSet delay t) s = .next u ∧ u.drive = s.drive ∧
      (s.cfg.level = .timed →
        u.result = lineLevel s.drive s.bus s.now ∧ u.inputs = s.inputs) ∧
      (s.cfg.level = .untimed → u.result = s.inputs.samples.headD (Config.freeSample s.inputs.fresh) ∧
        u.inputs = { s.inputs with samples := s.inputs.samples.tail, fresh := s.inputs.fresh + 1 }) ∧
      tickedStep t s u ∧ timerTicked delay t s u ∧ devicesTicked t s u ∧ u.bus.pulls = s.bus.pulls

/-- T_SAMPLE_OR adds a low sample to RESULT, which can only go from 0 to 1 (rules R109, R143). Where
the draws stand is the model's choice (log entry 10), and what the devices see of the end is rule
R207's and the model's Bus (log entry 8). -/
def Obligations.TSampleOrTick : Prop :=
  ∀ (s : State) (delay : BitVec 16) (t : Bool), s.cfg.engine = .timer →
    (t = true ↔ delay = 0#16) →
    ∃ u, exec (.tSampleOr delay t) s = .next u ∧ u.drive = s.drive ∧
      (s.result = true → u.result = true) ∧
      (s.cfg.level = .timed →
        u.result = (s.result || !lineLevel s.drive s.bus s.now) ∧ u.inputs = s.inputs) ∧
      (s.cfg.level = .untimed →
        u.result = (s.result || !s.inputs.samples.headD (Config.freeSample s.inputs.fresh)) ∧
        u.inputs = { s.inputs with samples := s.inputs.samples.tail, fresh := s.inputs.fresh + 1 }) ∧
      tickedStep t s u ∧ timerTicked delay t s u ∧ devicesTicked t s u ∧ u.bus.pulls = s.bus.pulls

/-! ### The shift engine's descriptors (rules R108, R110, R175 to R178) -/

/-- S_CAP_NONE discards the captured byte: STEP changes only in PROG, and in READY at the terminal
step; without T the next descriptor's transfer starts (rules R172, R177, R178). Level A's drive and the
Bus (rule R207) are the model's (log entries 8 and 18). -/
def Obligations.SCapNoneTick : Prop :=
  ∀ (s : State) (pat p : Byte) (t : Bool), s.cfg.engine ≠ .timer →
    (t = false → ∃ w, lookupDesc s.cfg s.key (s.prog + 1#4).toNat = some (.sdesc w) ∧
      w.extractLsb' 0 8 = p) →
    ∃ u, exec (.sCapNone pat t) s = .next u ∧ u.result = s.result ∧ tickedStep t s u ∧
      shiftTicked p t s u ∧ devicesTicked t s u ∧ u.inputs = s.inputs

/-- S_CAP_OR_LOW adds a low bit of the captured byte to RESULT, which can only go from 0 to 1 (rules
R172, R176, R178). Level A's drive and the Bus (rule R207) are the model's (log entries 8 and 18). -/
def Obligations.SCapOrLowTick : Prop :=
  ∀ (s : State) (pat p : Byte) (t : Bool), s.cfg.engine ≠ .timer →
    (t = false → ∃ w, lookupDesc s.cfg
        (keyOf (withResult (s.result || s.rxd != 0xFF#8) s.step)) (s.prog + 1#4).toNat =
          some (.sdesc w) ∧ w.extractLsb' 0 8 = p) →
    ∃ u, exec (.sCapOrLow pat t) s = .next u ∧ u.result = (s.result || s.rxd != 0xFF#8) ∧
      tickedStep t s u ∧ shiftTicked p t s u ∧ devicesTicked t s u ∧ u.inputs = s.inputs

/-- S_CAP_BIT sets RESULT to bit BITSEL of the captured byte (rules R172, R175, R178). Level A's drive
and the Bus (rule R207) are the model's (log entries 8 and 18). -/
def Obligations.SCapBitTick : Prop :=
  ∀ (s : State) (pat p : Byte) (bitsel : BitVec 3) (t : Bool), s.cfg.engine ≠ .timer →
    (t = false → ∃ w, lookupDesc s.cfg
        (keyOf (withResult (s.rxd.getLsbD bitsel.toNat) s.step)) (s.prog + 1#4).toNat =
          some (.sdesc w) ∧ w.extractLsb' 0 8 = p) →
    ∃ u, exec (.sCapBit pat bitsel t) s = .next u ∧ u.result = s.rxd.getLsbD bitsel.toNat ∧
      tickedStep t s u ∧ shiftTicked p t s u ∧ devicesTicked t s u ∧ u.inputs = s.inputs

/-- The reserved descriptors are refused on every path (rules R79, R81, R117). -/
def Obligations.ReservedDescriptorsRefused : Prop :=
  (∀ rest s, exec (.tRsvd5 rest) s = .refused .illegalDescriptor) ∧
  (∀ rest b0 s, exec (.tRsvd6 rest b0) s = .refused .illegalDescriptor) ∧
  (∀ rest pat s, exec (.sRsvd rest pat) s = .refused .illegalDescriptor)

/-- The forms that a legal configuration never gives a tick stop by name: a DELAY that breaks rule
R76, a descriptor of the other backend (rule R80), and a shift descriptor without T that is its
table's last (rule R117 condition 3). How they stop is the model's reading (log entry 23). -/
def Obligations.DescriptorStops : Prop :=
  (∀ (s : State) (delay : BitVec 16) (t : Bool), ∀ i ∈ [Instr.tHold delay t, .tDriveLow delay t,
      .tRelease delay t, .tSampleSet delay t, .tSampleOr delay t],
    (s.cfg.engine ≠ .timer → exec i s = .refused .otherBackend) ∧
    (s.cfg.engine = .timer → ¬(t = true ↔ delay = 0#16) →
      exec i s = .refused .illegalDescriptor)) ∧
  (∀ (s : State) (pat : Byte) (bitsel : BitVec 3) (t : Bool),
    ∀ i ∈ [Instr.sCapNone pat t, .sCapOrLow pat t, .sCapBit pat bitsel t],
      s.cfg.engine = .timer → exec i s = .refused .otherBackend) ∧
  (∀ (s : State) (pat : Byte) (bitsel : BitVec 3), s.cfg.engine ≠ .timer →
    ∀ (i : Instr) (key : Key), (i, key) ∈ [(Instr.sCapNone pat false, s.key),
        (.sCapOrLow pat false, keyOf (withResult (s.result || s.rxd != 0xFF#8) s.step)),
        (.sCapBit pat bitsel false, keyOf (withResult (s.rxd.getLsbD bitsel.toNat) s.step))] →
      (∀ w, lookupDesc s.cfg key (s.prog + 1#4).toNat ≠ some (.sdesc w)) →
      exec i s = .refused .illegalConfiguration)

/-! ### The step of the machine (rules R12, R58, R59, R106 to R112, R180, R224) -/

/-- A step runs the decoded instruction. At a tick the descriptor that KEY and PROG select runs at the
handler instant; at a Host step the instruction of the Host's next line runs, after the Host has moved
past it; a line that does not reach OWSEQ has its own effect (rules R58, R106, R108). A write of 1 byte at
OWSEQ_BASE is the command word of its byte, a read there is a STEP read into its register, `ow.issue
write, rs` is the command word 0x40 | (rs << 4), and a pseudo-instruction is itself; the other lines do
not reach OWSEQ (rules R50, R56, R80, R82, R83, R100). That byte for rs above 1 is the model's choice
(log entry 35). The Host's lines and its place are the model's choice (log entry 6), and so is the draw of a tie (log entry 10). -/
def Obligations.StepRunsDecodedInstr : Prop :=
  ∀ s : State, legalConfig s.cfg = true →
    (∀ h c i, nextTurn s = .tick h →
      fetchDesc (enterTick (advanceTo h (settleTie s))) = some c → decode c = .ok i →
      step s = exec i (enterTick (advanceTo h (settleTie s)))) ∧
    (∀ t op c i, nextTurn s = .host t → nextLine s = some op → lineKind op s = .code c →
      decode c = .ok i → step s = exec i (enterHost (advanceTo t (settleTie s)))) ∧
    (∀ t op, nextTurn s = .host t → nextLine s = some op → lineKind op s = .inHost →
      step s = .next (hostLocal op (enterHost (advanceTo t (settleTie s))))) ∧
    (∀ v, lineKind (.write s.cfg.base 1 v) s = .code (.cmd v)) ∧
    (∀ rd, lineKind (.read s.cfg.base 1 rd) s = .code (.stat rd)) ∧
    (∀ rs, lineKind (.writeBit rs) s = .code (.cmd (0x40#8 ||| (readReg rs s <<< 4)))) ∧
    (∀ p reg, lineKind (.pseudo p reg) s = .code (.pseudo p reg)) ∧
    (∀ (rd rs rt : Reg) (imm : Byte) (i label : Nat), ∀ op ∈ [HostOp.li rd imm, .bit rd rs i,
      .or rd rs rt, .shl rd rs i, .dec rd, .bnz rs label, .bz rs label], lineKind op s = .inHost)

/-- What a step does around the instruction. A tick consumes its event (rule R108) and one latency
(rule R107); in Level A of a shift engine its transfer is then complete, and RXD is a byte drawn for this
tick (rule R109). A Host step moves past its line and draws the time of the next. A tie of the Host and
a tick uses one draw. Nothing else changes. The Host's place, the draws and Level A's transfer are
the model's (log entries 6, 10 and 18). -/
def Obligations.StepEntry : Prop :=
  ∀ s : State,
    ((enterTick s).armed = false ∧ (enterTick s).cfg = s.cfg ∧ (enterTick s).now = s.now ∧
      (enterTick s).step = s.step ∧ (enterTick s).nextT = s.nextT ∧ (enterTick s).txd = s.txd ∧
      (enterTick s).cnt = s.cnt ∧ (enterTick s).cntPhase = s.cntPhase ∧
      (enterTick s).trapped = s.trapped ∧
      (enterTick s).fault = s.fault ∧ (enterTick s).host = s.host ∧ (enterTick s).bus = s.bus ∧
      (enterTick s).slot = s.slot ∧ (enterTick s).xferStart = s.xferStart) ∧
    (s.cfg.level = .timed ∨ s.cfg.engine = .timer → (enterTick s).drive = s.drive ∧
      (enterTick s).rxd = s.rxd ∧ (enterTick s).xferBusy = s.xferBusy) ∧
    (s.cfg.level = .untimed → s.cfg.engine ≠ .timer → (enterTick s).xferBusy = false ∧
      (enterTick s).drive = (if s.txd.getLsbD 0 then .rel else .low) ∧
      (enterTick s).rxd = s.inputs.bytes.headD (Config.freeByte (s.inputs.fresh + 1))) ∧
    (onlyHostChanged s { enterHost s with inputs := s.inputs } ∧
      (enterHost s).host.regs = s.host.regs ∧ (enterHost s).host.prog = s.host.prog ∧
      (∀ op rest, s.host.micro = op :: rest →
        (enterHost s).host.micro = rest ∧ (enterHost s).host.pc = s.host.pc) ∧
      (s.host.micro = [] → (enterHost s).host.micro = [] ∧
        (enterHost s).host.pc = s.host.pc + 1) ∧
      (enterHost s).host.nextAt = s.now + s.inputs.gaps.headD (Config.freeGap s.inputs.fresh) ∧
      (enterHost s).inputs =
        { s.inputs with gaps := s.inputs.gaps.tail, fresh := s.inputs.fresh + 1 }) ∧
    (s.cfg.level = .timed ∨ s.cfg.engine = .timer → (enterTick s).inputs =
      { s.inputs with lats := s.inputs.lats.tail, fresh := s.inputs.fresh + 1 }) ∧
    (s.cfg.level = .untimed → s.cfg.engine ≠ .timer → (enterTick s).inputs =
      { s.inputs with
        lats := s.inputs.lats.tail, bytes := s.inputs.bytes.tail, fresh := s.inputs.fresh + 2 }) ∧
    (∀ t h, hostTime s = some t → tickTime s = some h → settleTie s = if t = h then { s with
        inputs := { s.inputs with ties := s.inputs.ties.tail, fresh := s.inputs.fresh + 1 } } else s) ∧
    (hostTime s = none ∨ tickTime s = none → settleTie s = s)

/-- A command word placed where the machine takes its next instruction from is the first instruction
after reset: every byte but 5, 6 and 7, which the host's table gives the reserved timer rows (log
entry 14). That a placed word is the Host's next line, first at a tie, is the model's choice (log entry
15). -/
def Obligations.PlacedWordRuns : Prop :=
  ∀ w : Byte, w ≠ 5#8 → w ≠ 6#8 → w ≠ 7#8 →
    decodeTableWord 8 w.toNat = some (decodeCmd w) ∧
    step (State.reset.withFetchWord 8 w.toNat) =
      exec (decodeCmd w) (enterHost (settleTie (State.reset.withFetchWord 8 w.toNat)))

/-- Steps are ordered by time: the next turn is the earlier of the armed tick's handler, at NEXT_T
and its latency, and the Host's next step, and there is none where neither is due (rules R58, R107).
The Host's own time and a late step are the model's choice (log entries 6 and 27). -/
def Obligations.TurnsInTimeOrder : Prop :=
  ∀ s : State, s.cfg.level = .timed → s.fault = .none → s.inputs.resets = [] →
    (∀ h, nextTurn s = .tick h → s.armed = true ∧ h = max s.now (s.nextT + latency s) ∧
      ∀ op, nextLine s = some op → hostBlocked s = false → h ≤ max s.now s.host.nextAt) ∧
    (∀ t, nextTurn s = .host t → (∃ op, nextLine s = some op) ∧ hostBlocked s = false ∧
      t = max s.now s.host.nextAt ∧
      (s.armed = true → t ≤ max s.now (s.nextT + latency s))) ∧
    (nextTurn s = .idle ↔ s.armed = false ∧ (nextLine s = none ∨ hostBlocked s = true))

/-- The latency of a tick is any value in [0, L_MAX] (rule R107), and at a tie of the Host and a
tick both orders are admitted (rule R59). Where the draws stand is the model's choice (log entry
10). -/
def Obligations.LatencyAndTiesAreFree : Prop :=
  (∀ s, latency s ≤ s.cfg.lMax) ∧
  (∀ (s : State) (n : Nat) (rest : List Nat), n ≤ s.cfg.lMax →
    latency { s with inputs := { s.inputs with lats := n :: rest } } = n) ∧
  (∀ (s : State) (t : Nat) (b : Bool) (rest : List Bool), s.fault = .none →
    s.inputs.resets = [] → s.inputs.ties = b :: rest → hostTime s = some t →
    tickTime s = some t → nextTurn s = if b then .host t else .tick t)

/-- Where a tick finds no descriptor it traps: the tick is consumed, TRAPPED is set, and STEP and
everything else stays as the handler found it. In SHIFT_POLL the trap ends the Host's wait (rules R108,
R112, R229). -/
def Obligations.TrapWithoutDescriptor : Prop :=
  ∀ (s : State) (h : Nat), legalConfig s.cfg = true → nextTurn s = .tick h →
    fetchDesc (enterTick (advanceTo h (settleTie s))) = none →
    ∃ u, step s = .next u ∧ u.trapped = true ∧ u.armed = false ∧ u.step = s.step ∧
      hostBlocked u = false ∧
      u = { enterTick (advanceTo h (settleTie s)) with trapped := true }

/-- ISSUE_RSVD is accepted from a CleanEntry state and its first tick traps, on every engine and at
both levels: STEP keeps 0x60 and the line is released (rules R111, R153, R186). -/
def Obligations.ReservedOperationTraps : Prop :=
  ∀ s : State, cleanEntry s → ∃ u v, exec .issueRsvd s = .next u ∧ tickOnce u = .next v ∧
    v.step = 0x60#8 ∧ v.trapped = true ∧ v.armed = false ∧ v.drive = .rel ∧ v.fault = .none

/-- In a fault state no agent has an enabled step (rule R224). The outcome of step is the model's
choice (log entry 26). -/
def Obligations.FaultStateQuiescent : Prop :=
  ∀ s : State, legalConfig s.cfg = true → s.fault ≠ .none → s.inputs.resets = [] →
    step s = .fault .quiescent

/-- In SHIFT_POLL the Host has no step from the issuing write until READY = 1 or TRAPPED = 1; no other
engine blocks it (rules R101, R180). That a block reset in between keeps the Host is the model's choice
(log entry 11). -/
def Obligations.ShiftPollBlocksHost : Prop :=
  (∀ s u : State, s.cfg.engine = .shiftPoll → s.ready = false → s.trapped = false →
    step s = .next u → u.host = s.host) ∧
  (∀ s : State, s.cfg.engine ≠ .shiftPoll ∨ s.ready = true ∨ s.trapped = true →
    hostBlocked s = false)

/-- A Host step that is no write to STEP changes no state of OWSEQ that a later command depends on: a
read, a wait and a line of the host's own have no side effect (rules R29, R57, R113). -/
def Obligations.HostReadsKeepStep : Prop :=
  ∀ (s u : State) (t : Nat) (op : HostOp), nextTurn s = .host t → nextLine s = some op →
    (∀ addr width v, op ≠ .write addr width v) → (∀ rs, op ≠ .writeBit rs) →
    (∀ p r, op = .pseudo p r → p = .wait) → step s = .next u →
    u.step = s.step ∧ u.armed = s.armed ∧ u.nextT = s.nextT ∧ u.txd = s.txd ∧
      u.trapped = s.trapped ∧ u.fault = s.fault

/-! ### Whole-machine rules -/

/-- No step writes the configuration (rule R36) and the clock never goes back (rules R58, R107). That
Level A's clock does not move and that a block reset does not set the clock back is the model's choice
(log entry 5), and so is that a late step is taken at the clock's time (log entry 27). -/
def Obligations.ConfigAndClock : Prop :=
  ∀ s u : State, step s = .next u →
    u.cfg = s.cfg ∧ s.now ≤ u.now ∧ (s.cfg.level = .untimed → u.now = s.now)

/-- Every step keeps the invariant, from every state that meets it. Level A's line is the model's
reading (log entry 18). -/
def Obligations.InvariantKept : Prop :=
  ∀ s u : State, Invariant s → step s = .next u → Invariant u

/-- The invariant holds at reset, for every configuration. -/
def Obligations.InvariantAtReset : Prop :=
  Invariant State.reset ∧ ∀ cfg, Invariant (State.resetWith cfg)

/-- The five clauses of rule R39 follow from the invariant. -/
def Obligations.InvariantGivesR39 : Prop :=
  ∀ s : State, Invariant s → s.fault = .none → r39 s

/-- A Write-Bit sequence never changes RESULT (rules R24, R104, R122). -/
def Obligations.WriteKeepsResult : Prop :=
  ∀ (s u : State) (h : Nat), nextTurn s = .tick h → s.op = 0b10#2 → step s = .next u →
    u.result = s.result

/-- A tick never changes OP; it advances PROG by exactly 1, or it traps and leaves STEP as it was
(rules R23, R25, R28, R108, R112). READY is set only as the tick source is disarmed (rule R110). -/
def Obligations.TickAdvancesProg : Prop :=
  ∀ (s u : State) (h : Nat), nextTurn s = .tick h → step s = .next u → u.op = s.op ∧
    ((u.step = s.step ∧ u.trapped = true ∧ u.armed = false) ∨
     (u.prog = s.prog + 1#4 ∧ u.trapped = s.trapped ∧
       (u.ready = true → s.ready = true ∨ u.armed = false)))

/-- A command whose KEY has a table is followed by exactly N(KEY) ticks: PROG counts them, the last
sets READY, and no tick is armed after it (rules R102 to R104, R115). -/
def Obligations.SequenceTakesNTicks : Prop :=
  ∀ (s : State) (w : Byte) (n : Nat), cleanEntry s →
    stepCount s.cfg (keyOf (issuedStep w)) = some n → ∀ k ≤ n,
    ∃ u, ticks k (issue w s) = .next u ∧ u.prog.toNat = k ∧ u.ready = decide (k = n) ∧
      u.armed = decide (k < n) ∧ u.trapped = false ∧ u.fault = .none

/-- The two shift variants have the same waveform and the same RESULT for the same draws: a command
and any number of ticks leave the same state on both (rules R2, R180). -/
def Obligations.ShiftVariantsAgree : Prop :=
  ∀ s : State, s.cfg.engine = .shiftIrq →
    (∀ w, issue w (asPoll s) = asPoll (issue w s)) ∧
    (∀ n u, ticks n s = .next u → ticks n (asPoll s) = .next (asPoll u))

/-- A host that reaches OWSEQ only through the façade never raises ISSUE_BUSY (rules R205, R260). The
host's lines are the model's (log entries 6 and 7). -/
def Obligations.FacadeNeverIssuesBusy : Prop :=
  (∀ s : State, s.fault = .none → s.ready = true → s.host.micro = [] →
    s.host.prog.all isFacadeLine = true → facadeHost s) ∧
  (∀ s u : State, facadeHost s → step s = .next u → facadeHost u)

/-! ### The line, the timer and the transfers (rules R53, R145, R173, R174) -/

/-- The line is wired-AND: low exactly where the engine or a device pulls it (rules R53, R54). Devices
are intervals and a free function, the model's choice (log entry 8). -/
def Obligations.LineIsWiredAnd : Prop :=
  (∀ (d : Drive) (b : Bus) (t : Nat),
    lineLevel d b t = false ↔ d = .low ∨ pull b t = true) ∧
  (∀ (b : Bus) (t : Nat), pull b t = true ↔
    (∃ p ∈ b.pulls, p.1 ≤ t ∧ t < p.2) ∨ (b.free = true ∧ Config.freePull t = true))

/-- The timer's counter is free-running at 1 MHz: in every state, with a tick armed or not, it counts k
times over any k microseconds. After a reload for d counts it stands at 2^16 − d, counts first a whole
microsecond later, and overflows to zero at the next tick event and not before (rules R32, R145). The
instants at which it counts are the model's reading (log entry 19). -/
def Obligations.TimerOverflowsAtNextTick : Prop :=
  ∀ s : State, s.cfg.level = .timed → s.cfg.engine = .timer →
    (∀ k : Nat, (advanceTo (s.now + k * 1000) s).cnt = s.cnt + BitVec.ofNat 16 k) ∧
    (∀ d k t : Nat, 1 ≤ d → d ≤ 65535 → k ≤ d →
      (reloadTimer d s).nextT = s.now + d * 1000 ∧
      (reloadTimer d s).cnt = BitVec.ofNat 16 (2 ^ 16 - d) ∧
      (s.now + k * 1000 ≤ t → t < s.now + (k + 1) * 1000 →
        (advanceTo t (reloadTimer d s)).cnt = BitVec.ofNat 16 (2 ^ 16 - d + k)))

/-- Rule R173, the drive waveform of a transfer: cell k drives bit 7 − k of the pattern for its 9 µs,
and from the transfer's end on DRIVE keeps the last bit. XFER_BUSY is 1 until that end (rule R172). -/
def Obligations.TransferWaveform : Prop :=
  ∀ (s : State) (p : Byte) (t : Nat), s.cfg.level = .timed → s.cfg.engine ≠ .timer → s.now ≤ t →
    (∀ k : Nat, k < 8 → s.now + k * 9000 ≤ t → t < s.now + (k + 1) * 9000 →
      (advanceTo t (startXfer p s.now s)).drive = (if p.getLsbD (7 - k) then .rel else .low) ∧
      (advanceTo t (startXfer p s.now s)).xferBusy = true) ∧
    (s.now + 72000 ≤ t →
      (advanceTo t (startXfer p s.now s)).drive = (if p.getLsbD 0 then .rel else .low) ∧
      (advanceTo t (startXfer p s.now s)).xferBusy = false)

/-- The capture of a transfer: bit 7 − k of RXD is the line's level at the middle of cell k, while the
engine drives that cell's bit (rule R174). The Bus after the transfer holds all the pulls the cell saw,
also those that its devices add in answer to the transfer (log entry 8). -/
def Obligations.TransferCapture : Prop :=
  ∀ (s : State) (p : Byte) (k : Nat), s.cfg.level = .timed → s.cfg.engine ≠ .timer →
    k < 8 →
    (advanceTo (s.now + 72000) (startXfer p s.now s)).rxd.getLsbD (7 - k) =
      lineLevel (if p.getLsbD (7 - k) then .rel else .low)
        (advanceTo (s.now + 72000) (startXfer p s.now s)).bus (s.now + k * 9000 + 4500)

/-! ### The default tables (rules R118 to R123, R147 to R152, R181 to R185, R208, R211) -/

/-- The default TIMER configuration is conforming exactly when L_MAX ≤ 1.5 µs, and a default SHIFT_*
configuration exactly when L_MAX ≤ 14.25 µs (rules R118 to R121, R152, R185, R263). -/
def Obligations.DefaultTablesConformingIffLatencyBounded : Prop :=
  ∀ (e : Engine) (bound : Nat),
    (e, bound) ∈ [(Engine.timer, 1500), (.shiftIrq, 14250), (.shiftPoll, 14250)] →
    ∀ lMax base : Nat, conforming
      { level := .timed, engine := e, tables := defaultTables e, lMax := lMax, base := base } ↔
        lMax ≤ bound

/-- STEP at READY of the default tables, for every latency draw and every device: presence is the OR of
the presence samples, a read is its one sample, a write is P (rules R122, R147 to R151, R174, R181 to
R184). TIMER has two presence samples, and SHIFT_* the middles of the cells of two transfers. In Level A
the samples are draws (rule R109): those of the two or the one sample step, or the bytes of transfers 8
and 9 of a reset and of a read's one transfer. Where the draws stand is the model's choice (log entry
10). -/
def Obligations.DefaultTablesResultAtReady : Prop :=
  ∀ s : State, cleanEntry s → s.cfg.tables = defaultTables s.cfg.engine →
    (s.cfg.engine = .timer → s.cfg.level = .timed →
      (∃ u x y, ticks 5 (issue 0x00#8 s) = .next u ∧ u.slot.presence = [x, y] ∧
        u.slot.reads = [] ∧
        u.step = (if pull u.bus x || pull u.bus y then 0x95#8 else 0x85#8) ∧ u.drive = .rel) ∧
      (∃ u x, ticks 4 (issue 0x20#8 s) = .next u ∧ u.slot.reads = [x] ∧ u.slot.presence = [] ∧
        u.step = (if pull u.bus x then 0xA4#8 else 0xB4#8) ∧ u.drive = .rel) ∧
      (∀ p : Bool, ∃ u, ticks 4 (issue (if p then 0x50#8 else 0x40#8) s) = .next u ∧
        u.slot.presence = [] ∧ u.slot.reads = [] ∧
        u.step = (if p then 0xD4#8 else 0xC4#8) ∧ u.drive = .rel)) ∧
    (s.cfg.engine ≠ .timer → s.cfg.level = .timed →
      (∃ u x y, ticks 14 (issue 0x00#8 s) = .next u ∧ u.slot.reads = [] ∧
        u.slot.presence = (List.range 8).map (fun k => x + k * 9000 + 4500) ++
          (List.range 8).map (fun k => y + k * 9000 + 4500) ∧
        u.step = (if u.slot.presence.any (pull u.bus) then 0x9E#8 else 0x8E#8) ∧ u.drive = .rel) ∧
      (∃ u, ticks 1 (issue 0x20#8 s) = .next u ∧ u.slot.reads = [s.now + 13500] ∧
        u.slot.presence = [] ∧
        u.step = (if pull u.bus (s.now + 13500) then 0xA1#8 else 0xB1#8) ∧ u.drive = .rel) ∧
      (∀ p : Bool, ∃ u, ticks 1 (issue (if p then 0x50#8 else 0x40#8) s) = .next u ∧
        u.slot.presence = [] ∧ u.slot.reads = [] ∧
        u.step = (if p then 0xD1#8 else 0xC1#8) ∧ u.drive = .rel)) ∧
    (s.cfg.engine = .timer → s.cfg.level = .untimed →
      let draw := fun k n => s.inputs.samples.getD k (Config.freeSample (s.inputs.fresh + n))
      (∃ u, ticks 5 (issue 0x00#8 s) = .next u ∧
        u.step = (if !draw 0 3 || !draw 1 5 then 0x95#8 else 0x85#8) ∧ u.drive = .rel) ∧
      (∃ u, ticks 4 (issue 0x20#8 s) = .next u ∧
        u.step = (if draw 0 3 then 0xB4#8 else 0xA4#8) ∧ u.drive = .rel) ∧
      (∀ p : Bool, ∃ u, ticks 4 (issue (if p then 0x50#8 else 0x40#8) s) = .next u ∧
        u.step = (if p then 0xD4#8 else 0xC4#8) ∧ u.drive = .rel)) ∧
    (s.cfg.engine ≠ .timer → s.cfg.level = .untimed →
      let byte := fun k => s.inputs.bytes.getD k (Config.freeByte (s.inputs.fresh + 2 * k + 1))
      (∃ u, ticks 14 (issue 0x00#8 s) = .next u ∧
        u.step = (if byte 8 ≠ 0xFF#8 ∨ byte 9 ≠ 0xFF#8 then 0x9E#8 else 0x8E#8) ∧ u.drive = .rel) ∧
      (∃ u, ticks 1 (issue 0x20#8 s) = .next u ∧
        u.step = (if (byte 0).getLsbD 6 then 0xB1#8 else 0xA1#8) ∧ u.drive = .rel) ∧
      (∀ p : Bool, ∃ u, ticks 1 (issue (if p then 0x50#8 else 0x40#8) s) = .next u ∧
        u.step = (if p then 0xD1#8 else 0xC1#8) ∧ u.drive = .rel))

/-- The engines agree on every command for the Pulls of PROTO. With the default tables and the latency
bound of rule R263 a command whose key has a table ends with READY = 1, and RESULT is the device's
answer: whether it pulls, for a reset; the bit it sends, for a read; P, for a write (rules R122, R123).
So any two instances with the default tables meet rule R123 (how two runs are compared is the model's
reading, log entry 32). -/
def Obligations.EnginesAgreeOnProto : Prop :=
  (∀ (s : State) (e : Engine) (bound : Nat),
    (e, bound) ∈ [(Engine.timer, 1500), (.shiftIrq, 14250), (.shiftPoll, 14250)] →
    cleanEntry s → s.cfg.level = .timed → s.cfg.engine = e → s.cfg.tables = defaultTables e →
    s.cfg.lMax ≤ bound →
    ∀ (w : Byte) (n : Nat), stepCount s.cfg (keyOf (issuedStep w)) = some n →
      ∃ u, ticks n (issue w s) = .next u ∧ u.ready = true ∧ u.op = w.extractLsb' 5 2 ∧
        ∀ pulls, slotInProto u pulls →
          u.result = (if u.op = 0b00#2 then pulls else if u.op = 0b01#2 then !pulls
            else w.getLsbD 4)) ∧
  (∀ cfg1 cfg2 : Config, cfg1.level = .timed → cfg2.level = .timed →
    cfg1.tables = defaultTables cfg1.engine → cfg2.tables = defaultTables cfg2.engine →
    meetsR123 cfg1 cfg2)

/-- The source's presence scenarios on each engine: a device that pulls over [tR + 20 µs, tR + 140
µs) is present, an empty bus is not, and no device is no fault (rules R202, R210, R211, R222). The
Bus is the model's (log entry 8). -/
def Obligations.PresenceScenarios : Prop :=
  ∀ (e : Engine) (n : Nat) (present absent : Byte),
    (e, n, present, absent) ∈ [(Engine.timer, 5, 0x95#8, 0x85#8),
      (.shiftIrq, 14, 0x9E#8, 0x8E#8), (.shiftPoll, 14, 0x9E#8, 0x8E#8)] →
    (∃ u, ticks n (issue 0x00#8 ((State.resetWith (defaultConfig e)).setBus
        { pulls := [], responders := [.presence 20000 140000], free := false })) = .next u ∧
      u.step = present ∧ u.fault = .none) ∧
    (∃ u, ticks n (issue 0x00#8 ((State.resetWith (defaultConfig e)).setBus
        { pulls := [], responders := [], free := false })) = .next u ∧
      u.step = absent ∧ u.fault = .none)

/-- The round trips of rules R208 and R209 over the loop-back responder (rule R207), from every
CleanEntry state of Level B with the engine's default tables. One sequence, at any latency: LB takes a
bit at a read and appends P at a write, and it pulls over the first 30 µs of a read slot whose bit is 0
and nowhere else. With the latency bound of rule R263, Q empty and no other pull from now on, bits that
are written and then read back come back in order, however long the Host takes between two sequences.
The lines of `ow.wrbyte` issue bit i of the byte, and those of `ow.rdbyte` put the i-th bit read at bit i
(rule R201). The Bus is the model's (log entries 8 and 29), and a byte is put together in no temporary
(log entry 34). -/
def Obligations.LoopbackRoundTrips : Prop :=
  (∀ (s : State) (q : List Bool) (bit : Bool) (w : Byte) (n : Nat), cleanEntry s →
    s.cfg.level = .timed → s.cfg.tables = defaultTables s.cfg.engine →
    s.bus.responders = [.loopback q bit] → stepCount s.cfg (keyOf (issuedStep w)) = some n →
    ∃ u tL bit', ticks n (issue w s) = .next u ∧ u.slot.tL = some tL ∧ u.bus.free = s.bus.free ∧
      u.bus.responders = [.loopback (if w.extractLsb' 5 2 = 0b01#2 then q.tail
        else if w.extractLsb' 5 2 = 0b10#2 then q ++ [w.getLsbD 4] else q) bit'] ∧
      u.bus.pulls = s.bus.pulls ++ (if w.extractLsb' 5 2 = 0b01#2 ∧ q.head? = some false
        then [(tL, tL + 30000)] else [])) ∧
  (∀ (s : State) (e : Engine) (n bound : Nat) (bit : Bool) (vs : List Bool)
      (commands : List (Nat × Byte)),
    (e, n, bound) ∈ [(Engine.timer, 4, 1500), (.shiftIrq, 1, 14250), (.shiftPoll, 1, 14250)] →
    cleanEntry s → s.cfg.level = .timed → s.cfg.engine = e → s.cfg.tables = defaultTables e →
    s.cfg.lMax ≤ bound → s.bus.responders = [.loopback [] bit] →
    (∀ t, s.now ≤ t → pull s.bus t = false) →
    commands.map Prod.snd =
      vs.map (fun v => if v then 0x50#8 else 0x40#8) ++ List.replicate vs.length 0x20#8 →
    ∃ u, sequencesRun n commands s = some (vs ++ vs, u) ∧ u.ready = true) ∧
  (∀ (s : State) (rs : Reg) (i : Nat), lineKind (.writeBit .t) (hostLocal (.bit .t rs i) s) =
    .code (.cmd (if (readReg rs s).getLsbD i then 0x50#8 else 0x40#8))) ∧
  (∀ (s : State) (rd : Reg) (b : Byte), rd ≠ .t → readReg rd s = 0#8 →
    readReg rd ((List.range 8).foldl (fun s i => hostLocal (.or rd rd .t) (hostLocal (.shl .t .t i)
      (writeReg .t (if b.getLsbD i then 1#8 else 0#8) s))) s) = b)
end

