-- ==== Sys2Proof/Laws/State.lean ====
section
/-! SUPPORT. One lemma per field of State per field update of Machine/Ops.lean, true by rfl, so that no
proof unfolds a record update. -/

namespace Sys2Proof.Machine

variable (s : State)

@[simp] theorem State.setNow_cfg (v : Nat) : (s.setNow v).cfg = s.cfg := rfl
@[simp] theorem State.setNow_now (v : Nat) : (s.setNow v).now = v := rfl
@[simp] theorem State.setNow_step (v : Nat) : (s.setNow v).step = s.step := rfl
@[simp] theorem State.setNow_drive (v : Nat) : (s.setNow v).drive = s.drive := rfl
@[simp] theorem State.setNow_armed (v : Nat) : (s.setNow v).armed = s.armed := rfl
@[simp] theorem State.setNow_nextT (v : Nat) : (s.setNow v).nextT = s.nextT := rfl
@[simp] theorem State.setNow_cnt (v : Nat) : (s.setNow v).cnt = s.cnt := rfl
@[simp] theorem State.setNow_cntPhase (v : Nat) : (s.setNow v).cntPhase = s.cntPhase := rfl
@[simp] theorem State.setNow_txd (v : Nat) : (s.setNow v).txd = s.txd := rfl
@[simp] theorem State.setNow_rxd (v : Nat) : (s.setNow v).rxd = s.rxd := rfl
@[simp] theorem State.setNow_xferBusy (v : Nat) : (s.setNow v).xferBusy = s.xferBusy := rfl
@[simp] theorem State.setNow_xferStart (v : Nat) : (s.setNow v).xferStart = s.xferStart := rfl
@[simp] theorem State.setNow_trapped (v : Nat) : (s.setNow v).trapped = s.trapped := rfl
@[simp] theorem State.setNow_fault (v : Nat) : (s.setNow v).fault = s.fault := rfl
@[simp] theorem State.setNow_host (v : Nat) : (s.setNow v).host = s.host := rfl
@[simp] theorem State.setNow_bus (v : Nat) : (s.setNow v).bus = s.bus := rfl
@[simp] theorem State.setNow_slot (v : Nat) : (s.setNow v).slot = s.slot := rfl
@[simp] theorem State.setNow_inputs (v : Nat) : (s.setNow v).inputs = s.inputs := rfl

@[simp] theorem State.setStep_cfg (v : Byte) : (s.setStep v).cfg = s.cfg := rfl
@[simp] theorem State.setStep_now (v : Byte) : (s.setStep v).now = s.now := rfl
@[simp] theorem State.setStep_step (v : Byte) : (s.setStep v).step = v := rfl
@[simp] theorem State.setStep_drive (v : Byte) : (s.setStep v).drive = s.drive := rfl
@[simp] theorem State.setStep_armed (v : Byte) : (s.setStep v).armed = s.armed := rfl
@[simp] theorem State.setStep_nextT (v : Byte) : (s.setStep v).nextT = s.nextT := rfl
@[simp] theorem State.setStep_cnt (v : Byte) : (s.setStep v).cnt = s.cnt := rfl
@[simp] theorem State.setStep_cntPhase (v : Byte) : (s.setStep v).cntPhase = s.cntPhase := rfl
@[simp] theorem State.setStep_txd (v : Byte) : (s.setStep v).txd = s.txd := rfl
@[simp] theorem State.setStep_rxd (v : Byte) : (s.setStep v).rxd = s.rxd := rfl
@[simp] theorem State.setStep_xferBusy (v : Byte) : (s.setStep v).xferBusy = s.xferBusy := rfl
@[simp] theorem State.setStep_xferStart (v : Byte) : (s.setStep v).xferStart = s.xferStart := rfl
@[simp] theorem State.setStep_trapped (v : Byte) : (s.setStep v).trapped = s.trapped := rfl
@[simp] theorem State.setStep_fault (v : Byte) : (s.setStep v).fault = s.fault := rfl
@[simp] theorem State.setStep_host (v : Byte) : (s.setStep v).host = s.host := rfl
@[simp] theorem State.setStep_bus (v : Byte) : (s.setStep v).bus = s.bus := rfl
@[simp] theorem State.setStep_slot (v : Byte) : (s.setStep v).slot = s.slot := rfl
@[simp] theorem State.setStep_inputs (v : Byte) : (s.setStep v).inputs = s.inputs := rfl

@[simp] theorem State.setDrive_cfg (v : Drive) : (s.setDrive v).cfg = s.cfg := rfl
@[simp] theorem State.setDrive_now (v : Drive) : (s.setDrive v).now = s.now := rfl
@[simp] theorem State.setDrive_step (v : Drive) : (s.setDrive v).step = s.step := rfl
@[simp] theorem State.setDrive_drive (v : Drive) : (s.setDrive v).drive = v := rfl
@[simp] theorem State.setDrive_armed (v : Drive) : (s.setDrive v).armed = s.armed := rfl
@[simp] theorem State.setDrive_nextT (v : Drive) : (s.setDrive v).nextT = s.nextT := rfl
@[simp] theorem State.setDrive_cnt (v : Drive) : (s.setDrive v).cnt = s.cnt := rfl
@[simp] theorem State.setDrive_cntPhase (v : Drive) : (s.setDrive v).cntPhase = s.cntPhase := rfl
@[simp] theorem State.setDrive_txd (v : Drive) : (s.setDrive v).txd = s.txd := rfl
@[simp] theorem State.setDrive_rxd (v : Drive) : (s.setDrive v).rxd = s.rxd := rfl
@[simp] theorem State.setDrive_xferBusy (v : Drive) : (s.setDrive v).xferBusy = s.xferBusy := rfl
@[simp] theorem State.setDrive_xferStart (v : Drive) : (s.setDrive v).xferStart = s.xferStart := rfl
@[simp] theorem State.setDrive_trapped (v : Drive) : (s.setDrive v).trapped = s.trapped := rfl
@[simp] theorem State.setDrive_fault (v : Drive) : (s.setDrive v).fault = s.fault := rfl
@[simp] theorem State.setDrive_host (v : Drive) : (s.setDrive v).host = s.host := rfl
@[simp] theorem State.setDrive_bus (v : Drive) : (s.setDrive v).bus = s.bus := rfl
@[simp] theorem State.setDrive_slot (v : Drive) : (s.setDrive v).slot = s.slot := rfl
@[simp] theorem State.setDrive_inputs (v : Drive) : (s.setDrive v).inputs = s.inputs := rfl

@[simp] theorem State.setArmed_cfg (v : Bool) : (s.setArmed v).cfg = s.cfg := rfl
@[simp] theorem State.setArmed_now (v : Bool) : (s.setArmed v).now = s.now := rfl
@[simp] theorem State.setArmed_step (v : Bool) : (s.setArmed v).step = s.step := rfl
@[simp] theorem State.setArmed_drive (v : Bool) : (s.setArmed v).drive = s.drive := rfl
@[simp] theorem State.setArmed_armed (v : Bool) : (s.setArmed v).armed = v := rfl
@[simp] theorem State.setArmed_nextT (v : Bool) : (s.setArmed v).nextT = s.nextT := rfl
@[simp] theorem State.setArmed_cnt (v : Bool) : (s.setArmed v).cnt = s.cnt := rfl
@[simp] theorem State.setArmed_cntPhase (v : Bool) : (s.setArmed v).cntPhase = s.cntPhase := rfl
@[simp] theorem State.setArmed_txd (v : Bool) : (s.setArmed v).txd = s.txd := rfl
@[simp] theorem State.setArmed_rxd (v : Bool) : (s.setArmed v).rxd = s.rxd := rfl
@[simp] theorem State.setArmed_xferBusy (v : Bool) : (s.setArmed v).xferBusy = s.xferBusy := rfl
@[simp] theorem State.setArmed_xferStart (v : Bool) : (s.setArmed v).xferStart = s.xferStart := rfl
@[simp] theorem State.setArmed_trapped (v : Bool) : (s.setArmed v).trapped = s.trapped := rfl
@[simp] theorem State.setArmed_fault (v : Bool) : (s.setArmed v).fault = s.fault := rfl
@[simp] theorem State.setArmed_host (v : Bool) : (s.setArmed v).host = s.host := rfl
@[simp] theorem State.setArmed_bus (v : Bool) : (s.setArmed v).bus = s.bus := rfl
@[simp] theorem State.setArmed_slot (v : Bool) : (s.setArmed v).slot = s.slot := rfl
@[simp] theorem State.setArmed_inputs (v : Bool) : (s.setArmed v).inputs = s.inputs := rfl

@[simp] theorem State.setNextT_cfg (v : Nat) : (s.setNextT v).cfg = s.cfg := rfl
@[simp] theorem State.setNextT_now (v : Nat) : (s.setNextT v).now = s.now := rfl
@[simp] theorem State.setNextT_step (v : Nat) : (s.setNextT v).step = s.step := rfl
@[simp] theorem State.setNextT_drive (v : Nat) : (s.setNextT v).drive = s.drive := rfl
@[simp] theorem State.setNextT_armed (v : Nat) : (s.setNextT v).armed = s.armed := rfl
@[simp] theorem State.setNextT_nextT (v : Nat) : (s.setNextT v).nextT = v := rfl
@[simp] theorem State.setNextT_cnt (v : Nat) : (s.setNextT v).cnt = s.cnt := rfl
@[simp] theorem State.setNextT_cntPhase (v : Nat) : (s.setNextT v).cntPhase = s.cntPhase := rfl
@[simp] theorem State.setNextT_txd (v : Nat) : (s.setNextT v).txd = s.txd := rfl
@[simp] theorem State.setNextT_rxd (v : Nat) : (s.setNextT v).rxd = s.rxd := rfl
@[simp] theorem State.setNextT_xferBusy (v : Nat) : (s.setNextT v).xferBusy = s.xferBusy := rfl
@[simp] theorem State.setNextT_xferStart (v : Nat) : (s.setNextT v).xferStart = s.xferStart := rfl
@[simp] theorem State.setNextT_trapped (v : Nat) : (s.setNextT v).trapped = s.trapped := rfl
@[simp] theorem State.setNextT_fault (v : Nat) : (s.setNextT v).fault = s.fault := rfl
@[simp] theorem State.setNextT_host (v : Nat) : (s.setNextT v).host = s.host := rfl
@[simp] theorem State.setNextT_bus (v : Nat) : (s.setNextT v).bus = s.bus := rfl
@[simp] theorem State.setNextT_slot (v : Nat) : (s.setNextT v).slot = s.slot := rfl
@[simp] theorem State.setNextT_inputs (v : Nat) : (s.setNextT v).inputs = s.inputs := rfl

@[simp] theorem State.setCnt_cfg (v : BitVec 16) : (s.setCnt v).cfg = s.cfg := rfl
@[simp] theorem State.setCnt_now (v : BitVec 16) : (s.setCnt v).now = s.now := rfl
@[simp] theorem State.setCnt_step (v : BitVec 16) : (s.setCnt v).step = s.step := rfl
@[simp] theorem State.setCnt_drive (v : BitVec 16) : (s.setCnt v).drive = s.drive := rfl
@[simp] theorem State.setCnt_armed (v : BitVec 16) : (s.setCnt v).armed = s.armed := rfl
@[simp] theorem State.setCnt_nextT (v : BitVec 16) : (s.setCnt v).nextT = s.nextT := rfl
@[simp] theorem State.setCnt_cnt (v : BitVec 16) : (s.setCnt v).cnt = v := rfl
@[simp] theorem State.setCnt_cntPhase (v : BitVec 16) : (s.setCnt v).cntPhase = s.cntPhase := rfl
@[simp] theorem State.setCnt_txd (v : BitVec 16) : (s.setCnt v).txd = s.txd := rfl
@[simp] theorem State.setCnt_rxd (v : BitVec 16) : (s.setCnt v).rxd = s.rxd := rfl
@[simp] theorem State.setCnt_xferBusy (v : BitVec 16) : (s.setCnt v).xferBusy = s.xferBusy := rfl
@[simp] theorem State.setCnt_xferStart (v : BitVec 16) : (s.setCnt v).xferStart = s.xferStart := rfl
@[simp] theorem State.setCnt_trapped (v : BitVec 16) : (s.setCnt v).trapped = s.trapped := rfl
@[simp] theorem State.setCnt_fault (v : BitVec 16) : (s.setCnt v).fault = s.fault := rfl
@[simp] theorem State.setCnt_host (v : BitVec 16) : (s.setCnt v).host = s.host := rfl
@[simp] theorem State.setCnt_bus (v : BitVec 16) : (s.setCnt v).bus = s.bus := rfl
@[simp] theorem State.setCnt_slot (v : BitVec 16) : (s.setCnt v).slot = s.slot := rfl
@[simp] theorem State.setCnt_inputs (v : BitVec 16) : (s.setCnt v).inputs = s.inputs := rfl

@[simp] theorem State.setCntPhase_cfg (v : Nat) : (s.setCntPhase v).cfg = s.cfg := rfl
@[simp] theorem State.setCntPhase_now (v : Nat) : (s.setCntPhase v).now = s.now := rfl
@[simp] theorem State.setCntPhase_step (v : Nat) : (s.setCntPhase v).step = s.step := rfl
@[simp] theorem State.setCntPhase_drive (v : Nat) : (s.setCntPhase v).drive = s.drive := rfl
@[simp] theorem State.setCntPhase_armed (v : Nat) : (s.setCntPhase v).armed = s.armed := rfl
@[simp] theorem State.setCntPhase_nextT (v : Nat) : (s.setCntPhase v).nextT = s.nextT := rfl
@[simp] theorem State.setCntPhase_cnt (v : Nat) : (s.setCntPhase v).cnt = s.cnt := rfl
@[simp] theorem State.setCntPhase_cntPhase (v : Nat) : (s.setCntPhase v).cntPhase = v := rfl
@[simp] theorem State.setCntPhase_txd (v : Nat) : (s.setCntPhase v).txd = s.txd := rfl
@[simp] theorem State.setCntPhase_rxd (v : Nat) : (s.setCntPhase v).rxd = s.rxd := rfl
@[simp] theorem State.setCntPhase_xferBusy (v : Nat) : (s.setCntPhase v).xferBusy = s.xferBusy := rfl
@[simp] theorem State.setCntPhase_xferStart (v : Nat) : (s.setCntPhase v).xferStart = s.xferStart := rfl
@[simp] theorem State.setCntPhase_trapped (v : Nat) : (s.setCntPhase v).trapped = s.trapped := rfl
@[simp] theorem State.setCntPhase_fault (v : Nat) : (s.setCntPhase v).fault = s.fault := rfl
@[simp] theorem State.setCntPhase_host (v : Nat) : (s.setCntPhase v).host = s.host := rfl
@[simp] theorem State.setCntPhase_bus (v : Nat) : (s.setCntPhase v).bus = s.bus := rfl
@[simp] theorem State.setCntPhase_slot (v : Nat) : (s.setCntPhase v).slot = s.slot := rfl
@[simp] theorem State.setCntPhase_inputs (v : Nat) : (s.setCntPhase v).inputs = s.inputs := rfl

@[simp] theorem State.setTxd_cfg (v : Byte) : (s.setTxd v).cfg = s.cfg := rfl
@[simp] theorem State.setTxd_now (v : Byte) : (s.setTxd v).now = s.now := rfl
@[simp] theorem State.setTxd_step (v : Byte) : (s.setTxd v).step = s.step := rfl
@[simp] theorem State.setTxd_drive (v : Byte) : (s.setTxd v).drive = s.drive := rfl
@[simp] theorem State.setTxd_armed (v : Byte) : (s.setTxd v).armed = s.armed := rfl
@[simp] theorem State.setTxd_nextT (v : Byte) : (s.setTxd v).nextT = s.nextT := rfl
@[simp] theorem State.setTxd_cnt (v : Byte) : (s.setTxd v).cnt = s.cnt := rfl
@[simp] theorem State.setTxd_cntPhase (v : Byte) : (s.setTxd v).cntPhase = s.cntPhase := rfl
@[simp] theorem State.setTxd_txd (v : Byte) : (s.setTxd v).txd = v := rfl
@[simp] theorem State.setTxd_rxd (v : Byte) : (s.setTxd v).rxd = s.rxd := rfl
@[simp] theorem State.setTxd_xferBusy (v : Byte) : (s.setTxd v).xferBusy = s.xferBusy := rfl
@[simp] theorem State.setTxd_xferStart (v : Byte) : (s.setTxd v).xferStart = s.xferStart := rfl
@[simp] theorem State.setTxd_trapped (v : Byte) : (s.setTxd v).trapped = s.trapped := rfl
@[simp] theorem State.setTxd_fault (v : Byte) : (s.setTxd v).fault = s.fault := rfl
@[simp] theorem State.setTxd_host (v : Byte) : (s.setTxd v).host = s.host := rfl
@[simp] theorem State.setTxd_bus (v : Byte) : (s.setTxd v).bus = s.bus := rfl
@[simp] theorem State.setTxd_slot (v : Byte) : (s.setTxd v).slot = s.slot := rfl
@[simp] theorem State.setTxd_inputs (v : Byte) : (s.setTxd v).inputs = s.inputs := rfl

@[simp] theorem State.setRxd_cfg (v : Byte) : (s.setRxd v).cfg = s.cfg := rfl
@[simp] theorem State.setRxd_now (v : Byte) : (s.setRxd v).now = s.now := rfl
@[simp] theorem State.setRxd_step (v : Byte) : (s.setRxd v).step = s.step := rfl
@[simp] theorem State.setRxd_drive (v : Byte) : (s.setRxd v).drive = s.drive := rfl
@[simp] theorem State.setRxd_armed (v : Byte) : (s.setRxd v).armed = s.armed := rfl
@[simp] theorem State.setRxd_nextT (v : Byte) : (s.setRxd v).nextT = s.nextT := rfl
@[simp] theorem State.setRxd_cnt (v : Byte) : (s.setRxd v).cnt = s.cnt := rfl
@[simp] theorem State.setRxd_cntPhase (v : Byte) : (s.setRxd v).cntPhase = s.cntPhase := rfl
@[simp] theorem State.setRxd_txd (v : Byte) : (s.setRxd v).txd = s.txd := rfl
@[simp] theorem State.setRxd_rxd (v : Byte) : (s.setRxd v).rxd = v := rfl
@[simp] theorem State.setRxd_xferBusy (v : Byte) : (s.setRxd v).xferBusy = s.xferBusy := rfl
@[simp] theorem State.setRxd_xferStart (v : Byte) : (s.setRxd v).xferStart = s.xferStart := rfl
@[simp] theorem State.setRxd_trapped (v : Byte) : (s.setRxd v).trapped = s.trapped := rfl
@[simp] theorem State.setRxd_fault (v : Byte) : (s.setRxd v).fault = s.fault := rfl
@[simp] theorem State.setRxd_host (v : Byte) : (s.setRxd v).host = s.host := rfl
@[simp] theorem State.setRxd_bus (v : Byte) : (s.setRxd v).bus = s.bus := rfl
@[simp] theorem State.setRxd_slot (v : Byte) : (s.setRxd v).slot = s.slot := rfl
@[simp] theorem State.setRxd_inputs (v : Byte) : (s.setRxd v).inputs = s.inputs := rfl

@[simp] theorem State.setXferBusy_cfg (v : Bool) : (s.setXferBusy v).cfg = s.cfg := rfl
@[simp] theorem State.setXferBusy_now (v : Bool) : (s.setXferBusy v).now = s.now := rfl
@[simp] theorem State.setXferBusy_step (v : Bool) : (s.setXferBusy v).step = s.step := rfl
@[simp] theorem State.setXferBusy_drive (v : Bool) : (s.setXferBusy v).drive = s.drive := rfl
@[simp] theorem State.setXferBusy_armed (v : Bool) : (s.setXferBusy v).armed = s.armed := rfl
@[simp] theorem State.setXferBusy_nextT (v : Bool) : (s.setXferBusy v).nextT = s.nextT := rfl
@[simp] theorem State.setXferBusy_cnt (v : Bool) : (s.setXferBusy v).cnt = s.cnt := rfl
@[simp] theorem State.setXferBusy_cntPhase (v : Bool) : (s.setXferBusy v).cntPhase = s.cntPhase := rfl
@[simp] theorem State.setXferBusy_txd (v : Bool) : (s.setXferBusy v).txd = s.txd := rfl
@[simp] theorem State.setXferBusy_rxd (v : Bool) : (s.setXferBusy v).rxd = s.rxd := rfl
@[simp] theorem State.setXferBusy_xferBusy (v : Bool) : (s.setXferBusy v).xferBusy = v := rfl
@[simp] theorem State.setXferBusy_xferStart (v : Bool) : (s.setXferBusy v).xferStart = s.xferStart := rfl
@[simp] theorem State.setXferBusy_trapped (v : Bool) : (s.setXferBusy v).trapped = s.trapped := rfl
@[simp] theorem State.setXferBusy_fault (v : Bool) : (s.setXferBusy v).fault = s.fault := rfl
@[simp] theorem State.setXferBusy_host (v : Bool) : (s.setXferBusy v).host = s.host := rfl
@[simp] theorem State.setXferBusy_bus (v : Bool) : (s.setXferBusy v).bus = s.bus := rfl
@[simp] theorem State.setXferBusy_slot (v : Bool) : (s.setXferBusy v).slot = s.slot := rfl
@[simp] theorem State.setXferBusy_inputs (v : Bool) : (s.setXferBusy v).inputs = s.inputs := rfl

@[simp] theorem State.setXferStart_cfg (v : Nat) : (s.setXferStart v).cfg = s.cfg := rfl
@[simp] theorem State.setXferStart_now (v : Nat) : (s.setXferStart v).now = s.now := rfl
@[simp] theorem State.setXferStart_step (v : Nat) : (s.setXferStart v).step = s.step := rfl
@[simp] theorem State.setXferStart_drive (v : Nat) : (s.setXferStart v).drive = s.drive := rfl
@[simp] theorem State.setXferStart_armed (v : Nat) : (s.setXferStart v).armed = s.armed := rfl
@[simp] theorem State.setXferStart_nextT (v : Nat) : (s.setXferStart v).nextT = s.nextT := rfl
@[simp] theorem State.setXferStart_cnt (v : Nat) : (s.setXferStart v).cnt = s.cnt := rfl
@[simp] theorem State.setXferStart_cntPhase (v : Nat) : (s.setXferStart v).cntPhase = s.cntPhase := rfl
@[simp] theorem State.setXferStart_txd (v : Nat) : (s.setXferStart v).txd = s.txd := rfl
@[simp] theorem State.setXferStart_rxd (v : Nat) : (s.setXferStart v).rxd = s.rxd := rfl
@[simp] theorem State.setXferStart_xferBusy (v : Nat) : (s.setXferStart v).xferBusy = s.xferBusy := rfl
@[simp] theorem State.setXferStart_xferStart (v : Nat) : (s.setXferStart v).xferStart = v := rfl
@[simp] theorem State.setXferStart_trapped (v : Nat) : (s.setXferStart v).trapped = s.trapped := rfl
@[simp] theorem State.setXferStart_fault (v : Nat) : (s.setXferStart v).fault = s.fault := rfl
@[simp] theorem State.setXferStart_host (v : Nat) : (s.setXferStart v).host = s.host := rfl
@[simp] theorem State.setXferStart_bus (v : Nat) : (s.setXferStart v).bus = s.bus := rfl
@[simp] theorem State.setXferStart_slot (v : Nat) : (s.setXferStart v).slot = s.slot := rfl
@[simp] theorem State.setXferStart_inputs (v : Nat) : (s.setXferStart v).inputs = s.inputs := rfl

@[simp] theorem State.setTrapped_cfg (v : Bool) : (s.setTrapped v).cfg = s.cfg := rfl
@[simp] theorem State.setTrapped_now (v : Bool) : (s.setTrapped v).now = s.now := rfl
@[simp] theorem State.setTrapped_step (v : Bool) : (s.setTrapped v).step = s.step := rfl
@[simp] theorem State.setTrapped_drive (v : Bool) : (s.setTrapped v).drive = s.drive := rfl
@[simp] theorem State.setTrapped_armed (v : Bool) : (s.setTrapped v).armed = s.armed := rfl
@[simp] theorem State.setTrapped_nextT (v : Bool) : (s.setTrapped v).nextT = s.nextT := rfl
@[simp] theorem State.setTrapped_cnt (v : Bool) : (s.setTrapped v).cnt = s.cnt := rfl
@[simp] theorem State.setTrapped_cntPhase (v : Bool) : (s.setTrapped v).cntPhase = s.cntPhase := rfl
@[simp] theorem State.setTrapped_txd (v : Bool) : (s.setTrapped v).txd = s.txd := rfl
@[simp] theorem State.setTrapped_rxd (v : Bool) : (s.setTrapped v).rxd = s.rxd := rfl
@[simp] theorem State.setTrapped_xferBusy (v : Bool) : (s.setTrapped v).xferBusy = s.xferBusy := rfl
@[simp] theorem State.setTrapped_xferStart (v : Bool) : (s.setTrapped v).xferStart = s.xferStart := rfl
@[simp] theorem State.setTrapped_trapped (v : Bool) : (s.setTrapped v).trapped = v := rfl
@[simp] theorem State.setTrapped_fault (v : Bool) : (s.setTrapped v).fault = s.fault := rfl
@[simp] theorem State.setTrapped_host (v : Bool) : (s.setTrapped v).host = s.host := rfl
@[simp] theorem State.setTrapped_bus (v : Bool) : (s.setTrapped v).bus = s.bus := rfl
@[simp] theorem State.setTrapped_slot (v : Bool) : (s.setTrapped v).slot = s.slot := rfl
@[simp] theorem State.setTrapped_inputs (v : Bool) : (s.setTrapped v).inputs = s.inputs := rfl

@[simp] theorem State.setFault_cfg (v : FaultCode) : (s.setFault v).cfg = s.cfg := rfl
@[simp] theorem State.setFault_now (v : FaultCode) : (s.setFault v).now = s.now := rfl
@[simp] theorem State.setFault_step (v : FaultCode) : (s.setFault v).step = s.step := rfl
@[simp] theorem State.setFault_drive (v : FaultCode) : (s.setFault v).drive = s.drive := rfl
@[simp] theorem State.setFault_armed (v : FaultCode) : (s.setFault v).armed = s.armed := rfl
@[simp] theorem State.setFault_nextT (v : FaultCode) : (s.setFault v).nextT = s.nextT := rfl
@[simp] theorem State.setFault_cnt (v : FaultCode) : (s.setFault v).cnt = s.cnt := rfl
@[simp] theorem State.setFault_cntPhase (v : FaultCode) : (s.setFault v).cntPhase = s.cntPhase := rfl
@[simp] theorem State.setFault_txd (v : FaultCode) : (s.setFault v).txd = s.txd := rfl
@[simp] theorem State.setFault_rxd (v : FaultCode) : (s.setFault v).rxd = s.rxd := rfl
@[simp] theorem State.setFault_xferBusy (v : FaultCode) : (s.setFault v).xferBusy = s.xferBusy := rfl
@[simp] theorem State.setFault_xferStart (v : FaultCode) : (s.setFault v).xferStart = s.xferStart := rfl
@[simp] theorem State.setFault_trapped (v : FaultCode) : (s.setFault v).trapped = s.trapped := rfl
@[simp] theorem State.setFault_fault (v : FaultCode) : (s.setFault v).fault = v := rfl
@[simp] theorem State.setFault_host (v : FaultCode) : (s.setFault v).host = s.host := rfl
@[simp] theorem State.setFault_bus (v : FaultCode) : (s.setFault v).bus = s.bus := rfl
@[simp] theorem State.setFault_slot (v : FaultCode) : (s.setFault v).slot = s.slot := rfl
@[simp] theorem State.setFault_inputs (v : FaultCode) : (s.setFault v).inputs = s.inputs := rfl

@[simp] theorem State.setHost_cfg (v : HostCtx) : (s.setHost v).cfg = s.cfg := rfl
@[simp] theorem State.setHost_now (v : HostCtx) : (s.setHost v).now = s.now := rfl
@[simp] theorem State.setHost_step (v : HostCtx) : (s.setHost v).step = s.step := rfl
@[simp] theorem State.setHost_drive (v : HostCtx) : (s.setHost v).drive = s.drive := rfl
@[simp] theorem State.setHost_armed (v : HostCtx) : (s.setHost v).armed = s.armed := rfl
@[simp] theorem State.setHost_nextT (v : HostCtx) : (s.setHost v).nextT = s.nextT := rfl
@[simp] theorem State.setHost_cnt (v : HostCtx) : (s.setHost v).cnt = s.cnt := rfl
@[simp] theorem State.setHost_cntPhase (v : HostCtx) : (s.setHost v).cntPhase = s.cntPhase := rfl
@[simp] theorem State.setHost_txd (v : HostCtx) : (s.setHost v).txd = s.txd := rfl
@[simp] theorem State.setHost_rxd (v : HostCtx) : (s.setHost v).rxd = s.rxd := rfl
@[simp] theorem State.setHost_xferBusy (v : HostCtx) : (s.setHost v).xferBusy = s.xferBusy := rfl
@[simp] theorem State.setHost_xferStart (v : HostCtx) : (s.setHost v).xferStart = s.xferStart := rfl
@[simp] theorem State.setHost_trapped (v : HostCtx) : (s.setHost v).trapped = s.trapped := rfl
@[simp] theorem State.setHost_fault (v : HostCtx) : (s.setHost v).fault = s.fault := rfl
@[simp] theorem State.setHost_host (v : HostCtx) : (s.setHost v).host = v := rfl
@[simp] theorem State.setHost_bus (v : HostCtx) : (s.setHost v).bus = s.bus := rfl
@[simp] theorem State.setHost_slot (v : HostCtx) : (s.setHost v).slot = s.slot := rfl
@[simp] theorem State.setHost_inputs (v : HostCtx) : (s.setHost v).inputs = s.inputs := rfl

@[simp] theorem State.setBus_cfg (v : Bus) : (s.setBus v).cfg = s.cfg := rfl
@[simp] theorem State.setBus_now (v : Bus) : (s.setBus v).now = s.now := rfl
@[simp] theorem State.setBus_step (v : Bus) : (s.setBus v).step = s.step := rfl
@[simp] theorem State.setBus_drive (v : Bus) : (s.setBus v).drive = s.drive := rfl
@[simp] theorem State.setBus_armed (v : Bus) : (s.setBus v).armed = s.armed := rfl
@[simp] theorem State.setBus_nextT (v : Bus) : (s.setBus v).nextT = s.nextT := rfl
@[simp] theorem State.setBus_cnt (v : Bus) : (s.setBus v).cnt = s.cnt := rfl
@[simp] theorem State.setBus_cntPhase (v : Bus) : (s.setBus v).cntPhase = s.cntPhase := rfl
@[simp] theorem State.setBus_txd (v : Bus) : (s.setBus v).txd = s.txd := rfl
@[simp] theorem State.setBus_rxd (v : Bus) : (s.setBus v).rxd = s.rxd := rfl
@[simp] theorem State.setBus_xferBusy (v : Bus) : (s.setBus v).xferBusy = s.xferBusy := rfl
@[simp] theorem State.setBus_xferStart (v : Bus) : (s.setBus v).xferStart = s.xferStart := rfl
@[simp] theorem State.setBus_trapped (v : Bus) : (s.setBus v).trapped = s.trapped := rfl
@[simp] theorem State.setBus_fault (v : Bus) : (s.setBus v).fault = s.fault := rfl
@[simp] theorem State.setBus_host (v : Bus) : (s.setBus v).host = s.host := rfl
@[simp] theorem State.setBus_bus (v : Bus) : (s.setBus v).bus = v := rfl
@[simp] theorem State.setBus_slot (v : Bus) : (s.setBus v).slot = s.slot := rfl
@[simp] theorem State.setBus_inputs (v : Bus) : (s.setBus v).inputs = s.inputs := rfl

@[simp] theorem State.setSlot_cfg (v : Slot) : (s.setSlot v).cfg = s.cfg := rfl
@[simp] theorem State.setSlot_now (v : Slot) : (s.setSlot v).now = s.now := rfl
@[simp] theorem State.setSlot_step (v : Slot) : (s.setSlot v).step = s.step := rfl
@[simp] theorem State.setSlot_drive (v : Slot) : (s.setSlot v).drive = s.drive := rfl
@[simp] theorem State.setSlot_armed (v : Slot) : (s.setSlot v).armed = s.armed := rfl
@[simp] theorem State.setSlot_nextT (v : Slot) : (s.setSlot v).nextT = s.nextT := rfl
@[simp] theorem State.setSlot_cnt (v : Slot) : (s.setSlot v).cnt = s.cnt := rfl
@[simp] theorem State.setSlot_cntPhase (v : Slot) : (s.setSlot v).cntPhase = s.cntPhase := rfl
@[simp] theorem State.setSlot_txd (v : Slot) : (s.setSlot v).txd = s.txd := rfl
@[simp] theorem State.setSlot_rxd (v : Slot) : (s.setSlot v).rxd = s.rxd := rfl
@[simp] theorem State.setSlot_xferBusy (v : Slot) : (s.setSlot v).xferBusy = s.xferBusy := rfl
@[simp] theorem State.setSlot_xferStart (v : Slot) : (s.setSlot v).xferStart = s.xferStart := rfl
@[simp] theorem State.setSlot_trapped (v : Slot) : (s.setSlot v).trapped = s.trapped := rfl
@[simp] theorem State.setSlot_fault (v : Slot) : (s.setSlot v).fault = s.fault := rfl
@[simp] theorem State.setSlot_host (v : Slot) : (s.setSlot v).host = s.host := rfl
@[simp] theorem State.setSlot_bus (v : Slot) : (s.setSlot v).bus = s.bus := rfl
@[simp] theorem State.setSlot_slot (v : Slot) : (s.setSlot v).slot = v := rfl
@[simp] theorem State.setSlot_inputs (v : Slot) : (s.setSlot v).inputs = s.inputs := rfl

@[simp] theorem State.setInputs_cfg (v : Inputs) : (s.setInputs v).cfg = s.cfg := rfl
@[simp] theorem State.setInputs_now (v : Inputs) : (s.setInputs v).now = s.now := rfl
@[simp] theorem State.setInputs_step (v : Inputs) : (s.setInputs v).step = s.step := rfl
@[simp] theorem State.setInputs_drive (v : Inputs) : (s.setInputs v).drive = s.drive := rfl
@[simp] theorem State.setInputs_armed (v : Inputs) : (s.setInputs v).armed = s.armed := rfl
@[simp] theorem State.setInputs_nextT (v : Inputs) : (s.setInputs v).nextT = s.nextT := rfl
@[simp] theorem State.setInputs_cnt (v : Inputs) : (s.setInputs v).cnt = s.cnt := rfl
@[simp] theorem State.setInputs_cntPhase (v : Inputs) : (s.setInputs v).cntPhase = s.cntPhase := rfl
@[simp] theorem State.setInputs_txd (v : Inputs) : (s.setInputs v).txd = s.txd := rfl
@[simp] theorem State.setInputs_rxd (v : Inputs) : (s.setInputs v).rxd = s.rxd := rfl
@[simp] theorem State.setInputs_xferBusy (v : Inputs) : (s.setInputs v).xferBusy = s.xferBusy := rfl
@[simp] theorem State.setInputs_xferStart (v : Inputs) : (s.setInputs v).xferStart = s.xferStart := rfl
@[simp] theorem State.setInputs_trapped (v : Inputs) : (s.setInputs v).trapped = s.trapped := rfl
@[simp] theorem State.setInputs_fault (v : Inputs) : (s.setInputs v).fault = s.fault := rfl
@[simp] theorem State.setInputs_host (v : Inputs) : (s.setInputs v).host = s.host := rfl
@[simp] theorem State.setInputs_bus (v : Inputs) : (s.setInputs v).bus = s.bus := rfl
@[simp] theorem State.setInputs_slot (v : Inputs) : (s.setInputs v).slot = s.slot := rfl
@[simp] theorem State.setInputs_inputs (v : Inputs) : (s.setInputs v).inputs = v := rfl

end Sys2Proof.Machine
end

