-- ==== Sys2Proof/Laws/Step.lean ====
section
/-! SUPPORT. The fields of STEP after each way of writing it (rules R21, R101), and the table key. -/

namespace Sys2Proof.Machine

@[simp] theorem stepReady_mkStep (a : Bool) (op : BitVec 2) (r : Bool) (n : BitVec 4) :
    stepReady (mkStep a op r n) = a := by
  revert a op r n; decide

@[simp] theorem stepOp_mkStep (a : Bool) (op : BitVec 2) (r : Bool) (n : BitVec 4) :
    stepOp (mkStep a op r n) = op := by
  revert a op r n; decide

@[simp] theorem stepResult_mkStep (a : Bool) (op : BitVec 2) (r : Bool) (n : BitVec 4) :
    stepResult (mkStep a op r n) = r := by
  revert a op r n; decide

@[simp] theorem stepProg_mkStep (a : Bool) (op : BitVec 2) (r : Bool) (n : BitVec 4) :
    stepProg (mkStep a op r n) = n := by
  revert a op r n; decide

/-- STEP is its four fields (rule R21). -/
theorem mkStep_fields (w : Byte) :
    mkStep (stepReady w) (stepOp w) (stepResult w) (stepProg w) = w := by
  revert w; decide

@[simp] theorem stepReady_withReady (b : Bool) (w : Byte) : stepReady (withReady b w) = b := by
  simp [withReady]
@[simp] theorem stepOp_withReady (b : Bool) (w : Byte) : stepOp (withReady b w) = stepOp w := by
  simp [withReady]
@[simp] theorem stepResult_withReady (b : Bool) (w : Byte) :
    stepResult (withReady b w) = stepResult w := by simp [withReady]
@[simp] theorem stepProg_withReady (b : Bool) (w : Byte) :
    stepProg (withReady b w) = stepProg w := by simp [withReady]

@[simp] theorem stepReady_withResult (b : Bool) (w : Byte) :
    stepReady (withResult b w) = stepReady w := by simp [withResult]
@[simp] theorem stepOp_withResult (b : Bool) (w : Byte) : stepOp (withResult b w) = stepOp w := by
  simp [withResult]
@[simp] theorem stepResult_withResult (b : Bool) (w : Byte) :
    stepResult (withResult b w) = b := by simp [withResult]
@[simp] theorem stepProg_withResult (b : Bool) (w : Byte) :
    stepProg (withResult b w) = stepProg w := by simp [withResult]

@[simp] theorem stepReady_withProg (n : BitVec 4) (w : Byte) :
    stepReady (withProg n w) = stepReady w := by simp [withProg]
@[simp] theorem stepOp_withProg (n : BitVec 4) (w : Byte) : stepOp (withProg n w) = stepOp w := by
  simp [withProg]
@[simp] theorem stepResult_withProg (n : BitVec 4) (w : Byte) :
    stepResult (withProg n w) = stepResult w := by simp [withProg]
@[simp] theorem stepProg_withProg (n : BitVec 4) (w : Byte) : stepProg (withProg n w) = n := by
  simp [withProg]

@[simp] theorem stepReady_issuedStep (w : Byte) : stepReady (issuedStep w) = false := by
  simp [issuedStep]
@[simp] theorem stepOp_issuedStep (w : Byte) : stepOp (issuedStep w) = stepOp w := by
  simp [issuedStep]
@[simp] theorem stepResult_issuedStep (w : Byte) :
    stepResult (issuedStep w) = (stepOp w == opWrite && w.getLsbD 4) := by simp [issuedStep]
@[simp] theorem stepProg_issuedStep (w : Byte) : stepProg (issuedStep w) = 0#4 := by
  simp [issuedStep]

/-- The table key reads OP and RESULT only. -/
theorem keyOf_congr {v w : Byte} (ho : stepOp v = stepOp w) (hr : stepResult v = stepResult w) :
    keyOf v = keyOf w := by simp [keyOf, ho, hr]

/-- The table key reads RESULT only for a Write-Bit sequence (rule R74). -/
theorem keyOf_congr_op {v w : Byte} (ho : stepOp v = stepOp w) (hw : stepOp w ≠ opWrite) :
    keyOf v = keyOf w := by
  have h : (stepOp w == opWrite) = false := by simpa using hw
  simp [keyOf, ho, h]

@[simp] theorem keyOf_withReady (b : Bool) (w : Byte) : keyOf (withReady b w) = keyOf w :=
  keyOf_congr (by simp) (by simp)

@[simp] theorem keyOf_withProg (n : BitVec 4) (w : Byte) : keyOf (withProg n w) = keyOf w :=
  keyOf_congr (by simp) (by simp)

end Sys2Proof.Machine
end

