-- ==== Sys2Proof/Laws/Ops.lean ====
section
/-! SUPPORT. One lemma per shared operation of Machine/Ops.lean, which says everything it can do. -/

namespace Sys2Proof.Machine

@[simp] theorem setResult_eq (b : Bool) (s : State) :
    setResult b s = s.setStep (withResult b s.step) := rfl

@[simp] theorem advanceProg_eq (s : State) :
    advanceProg s = s.setStep (withProg (s.prog + 1#4) s.step) := rfl

@[simp] theorem disarm_eq (s : State) : disarm s = s.setArmed false := rfl

@[simp] theorem raiseIssueBusy_eq (s : State) : raiseIssueBusy s = s.setFault .issueBusy := rfl

@[simp] theorem trap_eq (s : State) : trap s = (s.setArmed false).setTrapped true := rfl

/-- The observer and the devices change the record of the slot and the pulls, and nothing else. -/
theorem noteDrive_eq (t : Nat) (d : Drive) (s : State) :
    ∃ sl b, noteDrive t d s = (s.setSlot sl).setBus b := by
  unfold noteDrive
  split
  · exact ⟨_, _, rfl⟩
  · exact ⟨{ s.slot with relow := true }, s.bus, rfl⟩
  · exact ⟨_, _, rfl⟩
  · exact ⟨s.slot, s.bus, rfl⟩

/-- `Drive(d)` sets DRIVE; besides that only the record of the slot and the pulls may change. -/
theorem driveAt_eq (t : Nat) (d : Drive) (s : State) :
    ∃ sl b, driveAt t d s = ((s.setDrive d).setSlot sl).setBus b :=
  noteDrive_eq t d (s.setDrive d)

theorem driveLine_eq (d : Drive) (s : State) :
    ∃ sl b, driveLine d s = ((s.setDrive d).setSlot sl).setBus b := driveAt_eq _ d s

/-- `ArmTick(t)` sets ARMED, and NEXT_T at Level B. -/
theorem armTick_eq (t : Nat) (s : State) :
    armTick t s = (s.setArmed true).setNextT (atLevel s.cfg.level t s.nextT) := rfl

/-- The counter counts the same over an interval as over its two parts: how the clock's advance is cut
into steps does not matter to CNT (rule R32). -/
theorem countsBetween_add (phase : Nat) {a b c : Nat} (hab : a ≤ b) (hbc : b ≤ c) :
    countsBetween phase a b + countsBetween phase b c = countsBetween phase a c := by
  simp only [countsBetween, nsPerCount]
  omega

/-- A reload writes CNT and its phase, and arms the tick (rule R145). -/
theorem reloadTimer_eq (d : Nat) (s : State) :
    reloadTimer d s = (((s.setCnt (reload d)).setCntPhase
      (atLevel s.cfg.level s.now s.cntPhase)).setArmed true).setNextT
      (atLevel s.cfg.level (s.now + d * nsPerCount) s.nextT) := rfl

/-- `StartXfer(p)` (rule R172), with the drive of the first cell. -/
theorem startXfer_eq (p : Byte) (st : Nat) (s : State) :
    ∃ sl b, startXfer p st s =
      (((((((s.setTxd p).setXferBusy true).setXferStart
        (atLevel s.cfg.level st s.xferStart)).setDrive (cellDrive p 0)).setSlot sl).setBus
          b).setArmed true).setNextT (atLevel s.cfg.level (st + tXfer) s.nextT) := by
  obtain ⟨sl, b, hd⟩ := driveAt_eq st (cellDrive p 0)
    (((s.setTxd p).setXferBusy true).setXferStart (atLevel s.cfg.level st s.xferStart))
  exact ⟨sl, b, by rw [startXfer, hd]; rfl⟩

/-- The record of a sample changes the slot or a draw, and nothing else. -/
theorem noteSamples_eq (kind : SampleKind) (ts : List Nat) (s : State) :
    ∃ sl, noteSamples kind ts s = s.setSlot sl := by
  unfold noteSamples
  split
  · exact ⟨_, rfl⟩
  · exact ⟨s.slot, rfl⟩

/-- A sample of one kind goes to the record of that kind, and to no other (rules R119, R120). -/
@[simp] theorem Slot.addSamples_presence (kind : SampleKind) (ts : List Nat) (sl : Slot) :
    (sl.addSamples kind ts).presence = if kind = .presence then sl.presence ++ ts else sl.presence := by
  cases kind <;> rfl
@[simp] theorem Slot.addSamples_reads (kind : SampleKind) (ts : List Nat) (sl : Slot) :
    (sl.addSamples kind ts).reads = if kind = .read then sl.reads ++ ts else sl.reads := by
  cases kind <;> rfl
@[simp] theorem Slot.addSamples_tL (kind : SampleKind) (ts : List Nat) (sl : Slot) :
    (sl.addSamples kind ts).tL = sl.tL := by cases kind <;> rfl
@[simp] theorem Slot.addSamples_tR (kind : SampleKind) (ts : List Nat) (sl : Slot) :
    (sl.addSamples kind ts).tR = sl.tR := by cases kind <;> rfl
@[simp] theorem Slot.addSamples_relow (kind : SampleKind) (ts : List Nat) (sl : Slot) :
    (sl.addSamples kind ts).relow = sl.relow := by cases kind <;> rfl
@[simp] theorem Slot.addSamples_tE (kind : SampleKind) (ts : List Nat) (sl : Slot) :
    (sl.addSamples kind ts).tE = sl.tE := by cases kind <;> rfl

theorem tookSample_eq (kind : SampleKind) (s : State) :
    ∃ sl i, tookSample kind s = (s.setSlot sl).setInputs i := by
  unfold tookSample
  split
  · obtain ⟨sl, h⟩ := noteSamples_eq kind [s.now] s
    exact ⟨sl, s.inputs, h⟩
  · exact ⟨s.slot, _, rfl⟩

/-- The terminal step sets READY and disarms (rule R110); besides that only the record of the slot
and the devices may change. -/
theorem terminal_eq (s : State) :
    ∃ sl b, terminal s =
      (((s.setStep (withReady true s.step)).setArmed false).setSlot sl).setBus b := by
  unfold terminal noteReady
  simp only [disarm_eq]
  split
  · exact ⟨_, _, rfl⟩
  · exact ⟨s.slot, _, rfl⟩

/-- What ISSUE leaves in the devices and the record of the slot. -/
theorem noteIssue_eq (op : BitVec 2) (s : State) :
    ∃ sl b, noteIssue op s = (s.setSlot sl).setBus b := ⟨_, _, rfl⟩

/-- A write to STEP with READY = 0 raises ISSUE_BUSY and has no other effect (rule R223). -/
theorem issue_busy {s : State} (w : Byte) (h : s.ready = false) :
    issue w s = s.setFault .issueBusy := by simp [issue, h]

/-- A write to STEP with READY = 1 is accepted. -/
theorem issue_ready {s : State} (w : Byte) (h : s.ready = true) : issue w s = accept w s := by
  simp [issue, h]

/-- An accepted command on a TIMER instance (rules R101, R146). -/
theorem accept_timer (w : Byte) {s : State} (h : s.cfg.engine = .timer) :
    accept w s = reloadTimer primeCounts (noteIssue (stepOp w) (s.setStep (issuedStep w))) := by
  have hc : (noteIssue (stepOp w) (s.setStep (issuedStep w))).cfg.engine = .timer := h
  simp only [accept, prime, hc]

/-- An accepted command on a SHIFT_* instance (rules R101, R171). -/
theorem accept_shift (w : Byte) {s : State} (h : s.cfg.engine ≠ .timer) :
    accept w s = startXfer (primePattern (s.setStep (issuedStep w))) s.now
      (noteIssue (stepOp w) (s.setStep (issuedStep w))) := by
  have hc : (noteIssue (stepOp w) (s.setStep (issuedStep w))).cfg.engine = s.cfg.engine := rfl
  cases he : s.cfg.engine
  · exact absurd he h
  all_goals
    simp only [accept, prime, hc, he]
    rfl

/-! Block reset, field by field (rules R250, R251). -/

@[simp] theorem blockReset_cfg (s : State) : (blockReset s).cfg = s.cfg := by
  simp [blockReset, bootInterrupts, bootStep, bootTickSource, bootPin]
@[simp] theorem blockReset_now (s : State) : (blockReset s).now = s.now := by
  simp [blockReset, bootInterrupts, bootStep, bootTickSource, bootPin]
@[simp] theorem blockReset_step (s : State) : (blockReset s).step = stepReset := by
  simp [blockReset, bootInterrupts, bootStep, bootTickSource, bootPin]
@[simp] theorem blockReset_drive (s : State) : (blockReset s).drive = .rel := by
  simp [blockReset, bootInterrupts, bootStep, bootTickSource, bootPin]
@[simp] theorem blockReset_armed (s : State) : (blockReset s).armed = false := by
  simp [blockReset, bootInterrupts, bootStep, bootTickSource, bootPin]
@[simp] theorem blockReset_nextT (s : State) : (blockReset s).nextT = 0 := by
  simp [blockReset, bootInterrupts, bootStep, bootTickSource, bootPin]
@[simp] theorem blockReset_cnt (s : State) : (blockReset s).cnt = 0#16 := by
  simp [blockReset, bootInterrupts, bootStep, bootTickSource, bootPin]
@[simp] theorem blockReset_cntPhase (s : State) : (blockReset s).cntPhase = 0 := by
  simp [blockReset, bootInterrupts, bootStep, bootTickSource, bootPin]
@[simp] theorem blockReset_txd (s : State) : (blockReset s).txd = 0#8 := by
  simp [blockReset, bootInterrupts, bootStep, bootTickSource, bootPin]
@[simp] theorem blockReset_rxd (s : State) : (blockReset s).rxd = 0#8 := by
  simp [blockReset, bootInterrupts, bootStep, bootTickSource, bootPin]
@[simp] theorem blockReset_xferBusy (s : State) : (blockReset s).xferBusy = false := by
  simp [blockReset, bootInterrupts, bootStep, bootTickSource, bootPin]
@[simp] theorem blockReset_xferStart (s : State) : (blockReset s).xferStart = 0 := by
  simp [blockReset, bootInterrupts, bootStep, bootTickSource, bootPin]
@[simp] theorem blockReset_trapped (s : State) : (blockReset s).trapped = false := by
  simp [blockReset, bootInterrupts, bootStep, bootTickSource, bootPin]
@[simp] theorem blockReset_fault (s : State) : (blockReset s).fault = .none := by
  simp [blockReset, bootInterrupts, bootStep, bootTickSource, bootPin]
@[simp] theorem blockReset_host (s : State) : (blockReset s).host = s.host := by
  simp [blockReset, bootInterrupts, bootStep, bootTickSource, bootPin]
@[simp] theorem blockReset_bus (s : State) : (blockReset s).bus = s.bus := by
  simp [blockReset, bootInterrupts, bootStep, bootTickSource, bootPin]
@[simp] theorem blockReset_slot (s : State) : (blockReset s).slot = Slot.empty := by
  simp [blockReset, bootInterrupts, bootStep, bootTickSource, bootPin]
@[simp] theorem blockReset_inputs (s : State) : (blockReset s).inputs = s.inputs := by
  simp [blockReset, bootInterrupts, bootStep, bootTickSource, bootPin]

/-- Reading back a host register that was written. -/
@[simp] theorem Regs_get_set_self (rs : Regs) (reg : Reg) (v : Byte) :
    (rs.set reg v).get reg = v := by
  cases reg <;> simp [Regs.get, Regs.set]

/-- A write to a host register leaves the others alone. -/
theorem Regs_get_set_ne (rs : Regs) {r reg : Reg} (v : Byte) (h : r ≠ reg) :
    (rs.set reg v).get r = rs.get r := by
  cases reg <;> cases r <;> simp_all [Regs.get, Regs.set]
  rename_i n m
  exact Vector.getElem_set_ne _ _ (fun e => h (Fin.ext e.symm))

/-- The latency is in [0, L_MAX] (rule R107). -/
theorem latency_le (s : State) : latency s ≤ s.cfg.lMax := by
  unfold latency
  split
  · exact Nat.zero_le _
  · exact Nat.min_le_right _ _

/-- A step due at some time is not before the clock. -/
theorem now_le_max (s : State) (t : Nat) : s.now ≤ max s.now t := Nat.le_max_left _ _

end Sys2Proof.Machine
end

