-- ==== Sys2Proof/Laws/Fields.lean ====
section
/-! SUPPORT. What each operation of Machine/Ops.lean leaves in each field of State that it does not
change, or changes to a value the rule gives: its frame, field by field. -/

namespace Sys2Proof.Machine

variable (s : State)

@[simp] theorem noteDrive_cfg (t : Nat) (d : Drive) : (noteDrive t d s).cfg = s.cfg := by
  obtain ⟨_, _, h⟩ := noteDrive_eq t d s; simp [h]
@[simp] theorem noteDrive_now (t : Nat) (d : Drive) : (noteDrive t d s).now = s.now := by
  obtain ⟨_, _, h⟩ := noteDrive_eq t d s; simp [h]
@[simp] theorem noteDrive_step (t : Nat) (d : Drive) : (noteDrive t d s).step = s.step := by
  obtain ⟨_, _, h⟩ := noteDrive_eq t d s; simp [h]
@[simp] theorem noteDrive_drive (t : Nat) (d : Drive) : (noteDrive t d s).drive = s.drive := by
  obtain ⟨_, _, h⟩ := noteDrive_eq t d s; simp [h]
@[simp] theorem noteDrive_armed (t : Nat) (d : Drive) : (noteDrive t d s).armed = s.armed := by
  obtain ⟨_, _, h⟩ := noteDrive_eq t d s; simp [h]
@[simp] theorem noteDrive_nextT (t : Nat) (d : Drive) : (noteDrive t d s).nextT = s.nextT := by
  obtain ⟨_, _, h⟩ := noteDrive_eq t d s; simp [h]
@[simp] theorem noteDrive_cnt (t : Nat) (d : Drive) : (noteDrive t d s).cnt = s.cnt := by
  obtain ⟨_, _, h⟩ := noteDrive_eq t d s; simp [h]
@[simp] theorem noteDrive_cntPhase (t : Nat) (d : Drive) : (noteDrive t d s).cntPhase = s.cntPhase := by
  obtain ⟨_, _, h⟩ := noteDrive_eq t d s; simp [h]
@[simp] theorem noteDrive_txd (t : Nat) (d : Drive) : (noteDrive t d s).txd = s.txd := by
  obtain ⟨_, _, h⟩ := noteDrive_eq t d s; simp [h]
@[simp] theorem noteDrive_rxd (t : Nat) (d : Drive) : (noteDrive t d s).rxd = s.rxd := by
  obtain ⟨_, _, h⟩ := noteDrive_eq t d s; simp [h]
@[simp] theorem noteDrive_xferBusy (t : Nat) (d : Drive) : (noteDrive t d s).xferBusy = s.xferBusy := by
  obtain ⟨_, _, h⟩ := noteDrive_eq t d s; simp [h]
@[simp] theorem noteDrive_xferStart (t : Nat) (d : Drive) : (noteDrive t d s).xferStart = s.xferStart := by
  obtain ⟨_, _, h⟩ := noteDrive_eq t d s; simp [h]
@[simp] theorem noteDrive_trapped (t : Nat) (d : Drive) : (noteDrive t d s).trapped = s.trapped := by
  obtain ⟨_, _, h⟩ := noteDrive_eq t d s; simp [h]
@[simp] theorem noteDrive_fault (t : Nat) (d : Drive) : (noteDrive t d s).fault = s.fault := by
  obtain ⟨_, _, h⟩ := noteDrive_eq t d s; simp [h]
@[simp] theorem noteDrive_host (t : Nat) (d : Drive) : (noteDrive t d s).host = s.host := by
  obtain ⟨_, _, h⟩ := noteDrive_eq t d s; simp [h]
@[simp] theorem noteDrive_inputs (t : Nat) (d : Drive) : (noteDrive t d s).inputs = s.inputs := by
  obtain ⟨_, _, h⟩ := noteDrive_eq t d s; simp [h]

@[simp] theorem driveAt_cfg (t : Nat) (d : Drive) : (driveAt t d s).cfg = s.cfg := by
  obtain ⟨_, _, h⟩ := driveAt_eq t d s; simp [h]
@[simp] theorem driveAt_now (t : Nat) (d : Drive) : (driveAt t d s).now = s.now := by
  obtain ⟨_, _, h⟩ := driveAt_eq t d s; simp [h]
@[simp] theorem driveAt_step (t : Nat) (d : Drive) : (driveAt t d s).step = s.step := by
  obtain ⟨_, _, h⟩ := driveAt_eq t d s; simp [h]
@[simp] theorem driveAt_drive (t : Nat) (d : Drive) : (driveAt t d s).drive = d := by
  obtain ⟨_, _, h⟩ := driveAt_eq t d s; simp [h]
@[simp] theorem driveAt_armed (t : Nat) (d : Drive) : (driveAt t d s).armed = s.armed := by
  obtain ⟨_, _, h⟩ := driveAt_eq t d s; simp [h]
@[simp] theorem driveAt_nextT (t : Nat) (d : Drive) : (driveAt t d s).nextT = s.nextT := by
  obtain ⟨_, _, h⟩ := driveAt_eq t d s; simp [h]
@[simp] theorem driveAt_cnt (t : Nat) (d : Drive) : (driveAt t d s).cnt = s.cnt := by
  obtain ⟨_, _, h⟩ := driveAt_eq t d s; simp [h]
@[simp] theorem driveAt_cntPhase (t : Nat) (d : Drive) : (driveAt t d s).cntPhase = s.cntPhase := by
  obtain ⟨_, _, h⟩ := driveAt_eq t d s; simp [h]
@[simp] theorem driveAt_txd (t : Nat) (d : Drive) : (driveAt t d s).txd = s.txd := by
  obtain ⟨_, _, h⟩ := driveAt_eq t d s; simp [h]
@[simp] theorem driveAt_rxd (t : Nat) (d : Drive) : (driveAt t d s).rxd = s.rxd := by
  obtain ⟨_, _, h⟩ := driveAt_eq t d s; simp [h]
@[simp] theorem driveAt_xferBusy (t : Nat) (d : Drive) : (driveAt t d s).xferBusy = s.xferBusy := by
  obtain ⟨_, _, h⟩ := driveAt_eq t d s; simp [h]
@[simp] theorem driveAt_xferStart (t : Nat) (d : Drive) : (driveAt t d s).xferStart = s.xferStart := by
  obtain ⟨_, _, h⟩ := driveAt_eq t d s; simp [h]
@[simp] theorem driveAt_trapped (t : Nat) (d : Drive) : (driveAt t d s).trapped = s.trapped := by
  obtain ⟨_, _, h⟩ := driveAt_eq t d s; simp [h]
@[simp] theorem driveAt_fault (t : Nat) (d : Drive) : (driveAt t d s).fault = s.fault := by
  obtain ⟨_, _, h⟩ := driveAt_eq t d s; simp [h]
@[simp] theorem driveAt_host (t : Nat) (d : Drive) : (driveAt t d s).host = s.host := by
  obtain ⟨_, _, h⟩ := driveAt_eq t d s; simp [h]
@[simp] theorem driveAt_inputs (t : Nat) (d : Drive) : (driveAt t d s).inputs = s.inputs := by
  obtain ⟨_, _, h⟩ := driveAt_eq t d s; simp [h]

@[simp] theorem driveLine_cfg (d : Drive) : (driveLine d s).cfg = s.cfg := by
  obtain ⟨_, _, h⟩ := driveLine_eq d s; simp [h]
@[simp] theorem driveLine_now (d : Drive) : (driveLine d s).now = s.now := by
  obtain ⟨_, _, h⟩ := driveLine_eq d s; simp [h]
@[simp] theorem driveLine_step (d : Drive) : (driveLine d s).step = s.step := by
  obtain ⟨_, _, h⟩ := driveLine_eq d s; simp [h]
@[simp] theorem driveLine_drive (d : Drive) : (driveLine d s).drive = d := by
  obtain ⟨_, _, h⟩ := driveLine_eq d s; simp [h]
@[simp] theorem driveLine_armed (d : Drive) : (driveLine d s).armed = s.armed := by
  obtain ⟨_, _, h⟩ := driveLine_eq d s; simp [h]
@[simp] theorem driveLine_nextT (d : Drive) : (driveLine d s).nextT = s.nextT := by
  obtain ⟨_, _, h⟩ := driveLine_eq d s; simp [h]
@[simp] theorem driveLine_cnt (d : Drive) : (driveLine d s).cnt = s.cnt := by
  obtain ⟨_, _, h⟩ := driveLine_eq d s; simp [h]
@[simp] theorem driveLine_cntPhase (d : Drive) : (driveLine d s).cntPhase = s.cntPhase := by
  obtain ⟨_, _, h⟩ := driveLine_eq d s; simp [h]
@[simp] theorem driveLine_txd (d : Drive) : (driveLine d s).txd = s.txd := by
  obtain ⟨_, _, h⟩ := driveLine_eq d s; simp [h]
@[simp] theorem driveLine_rxd (d : Drive) : (driveLine d s).rxd = s.rxd := by
  obtain ⟨_, _, h⟩ := driveLine_eq d s; simp [h]
@[simp] theorem driveLine_xferBusy (d : Drive) : (driveLine d s).xferBusy = s.xferBusy := by
  obtain ⟨_, _, h⟩ := driveLine_eq d s; simp [h]
@[simp] theorem driveLine_xferStart (d : Drive) : (driveLine d s).xferStart = s.xferStart := by
  obtain ⟨_, _, h⟩ := driveLine_eq d s; simp [h]
@[simp] theorem driveLine_trapped (d : Drive) : (driveLine d s).trapped = s.trapped := by
  obtain ⟨_, _, h⟩ := driveLine_eq d s; simp [h]
@[simp] theorem driveLine_fault (d : Drive) : (driveLine d s).fault = s.fault := by
  obtain ⟨_, _, h⟩ := driveLine_eq d s; simp [h]
@[simp] theorem driveLine_host (d : Drive) : (driveLine d s).host = s.host := by
  obtain ⟨_, _, h⟩ := driveLine_eq d s; simp [h]
@[simp] theorem driveLine_inputs (d : Drive) : (driveLine d s).inputs = s.inputs := by
  obtain ⟨_, _, h⟩ := driveLine_eq d s; simp [h]

@[simp] theorem armTick_cfg (t : Nat) : (armTick t s).cfg = s.cfg := by
  simp [armTick]
@[simp] theorem armTick_now (t : Nat) : (armTick t s).now = s.now := by
  simp [armTick]
@[simp] theorem armTick_step (t : Nat) : (armTick t s).step = s.step := by
  simp [armTick]
@[simp] theorem armTick_drive (t : Nat) : (armTick t s).drive = s.drive := by
  simp [armTick]
@[simp] theorem armTick_armed (t : Nat) : (armTick t s).armed = true := by
  simp [armTick]
@[simp] theorem armTick_nextT (t : Nat) : (armTick t s).nextT = atLevel s.cfg.level t s.nextT := by
  simp [armTick]
@[simp] theorem armTick_cnt (t : Nat) : (armTick t s).cnt = s.cnt := by
  simp [armTick]
@[simp] theorem armTick_cntPhase (t : Nat) : (armTick t s).cntPhase = s.cntPhase := by
  simp [armTick]
@[simp] theorem armTick_txd (t : Nat) : (armTick t s).txd = s.txd := by
  simp [armTick]
@[simp] theorem armTick_rxd (t : Nat) : (armTick t s).rxd = s.rxd := by
  simp [armTick]
@[simp] theorem armTick_xferBusy (t : Nat) : (armTick t s).xferBusy = s.xferBusy := by
  simp [armTick]
@[simp] theorem armTick_xferStart (t : Nat) : (armTick t s).xferStart = s.xferStart := by
  simp [armTick]
@[simp] theorem armTick_trapped (t : Nat) : (armTick t s).trapped = s.trapped := by
  simp [armTick]
@[simp] theorem armTick_fault (t : Nat) : (armTick t s).fault = s.fault := by
  simp [armTick]
@[simp] theorem armTick_host (t : Nat) : (armTick t s).host = s.host := by
  simp [armTick]
@[simp] theorem armTick_bus (t : Nat) : (armTick t s).bus = s.bus := by
  simp [armTick]
@[simp] theorem armTick_slot (t : Nat) : (armTick t s).slot = s.slot := by
  simp [armTick]
@[simp] theorem armTick_inputs (t : Nat) : (armTick t s).inputs = s.inputs := by
  simp [armTick]

@[simp] theorem reloadTimer_cfg (d : Nat) : (reloadTimer d s).cfg = s.cfg := by
  simp [reloadTimer]
@[simp] theorem reloadTimer_now (d : Nat) : (reloadTimer d s).now = s.now := by
  simp [reloadTimer]
@[simp] theorem reloadTimer_step (d : Nat) : (reloadTimer d s).step = s.step := by
  simp [reloadTimer]
@[simp] theorem reloadTimer_drive (d : Nat) : (reloadTimer d s).drive = s.drive := by
  simp [reloadTimer]
@[simp] theorem reloadTimer_armed (d : Nat) : (reloadTimer d s).armed = true := by
  simp [reloadTimer]
@[simp] theorem reloadTimer_nextT (d : Nat) : (reloadTimer d s).nextT = atLevel s.cfg.level (s.now + d * nsPerCount) s.nextT := by
  simp [reloadTimer]
@[simp] theorem reloadTimer_cnt (d : Nat) : (reloadTimer d s).cnt = reload d := by
  simp [reloadTimer]
@[simp] theorem reloadTimer_cntPhase (d : Nat) :
    (reloadTimer d s).cntPhase = atLevel s.cfg.level s.now s.cntPhase := by
  simp [reloadTimer]
@[simp] theorem reloadTimer_txd (d : Nat) : (reloadTimer d s).txd = s.txd := by
  simp [reloadTimer]
@[simp] theorem reloadTimer_rxd (d : Nat) : (reloadTimer d s).rxd = s.rxd := by
  simp [reloadTimer]
@[simp] theorem reloadTimer_xferBusy (d : Nat) : (reloadTimer d s).xferBusy = s.xferBusy := by
  simp [reloadTimer]
@[simp] theorem reloadTimer_xferStart (d : Nat) : (reloadTimer d s).xferStart = s.xferStart := by
  simp [reloadTimer]
@[simp] theorem reloadTimer_trapped (d : Nat) : (reloadTimer d s).trapped = s.trapped := by
  simp [reloadTimer]
@[simp] theorem reloadTimer_fault (d : Nat) : (reloadTimer d s).fault = s.fault := by
  simp [reloadTimer]
@[simp] theorem reloadTimer_host (d : Nat) : (reloadTimer d s).host = s.host := by
  simp [reloadTimer]
@[simp] theorem reloadTimer_bus (d : Nat) : (reloadTimer d s).bus = s.bus := by
  simp [reloadTimer]
@[simp] theorem reloadTimer_slot (d : Nat) : (reloadTimer d s).slot = s.slot := by
  simp [reloadTimer]
@[simp] theorem reloadTimer_inputs (d : Nat) : (reloadTimer d s).inputs = s.inputs := by
  simp [reloadTimer]

@[simp] theorem startXfer_cfg (p : Byte) (st : Nat) : (startXfer p st s).cfg = s.cfg := by
  simp [startXfer]
@[simp] theorem startXfer_now (p : Byte) (st : Nat) : (startXfer p st s).now = s.now := by
  simp [startXfer]
@[simp] theorem startXfer_step (p : Byte) (st : Nat) : (startXfer p st s).step = s.step := by
  simp [startXfer]
@[simp] theorem startXfer_drive (p : Byte) (st : Nat) : (startXfer p st s).drive = cellDrive p 0 := by
  simp [startXfer]
@[simp] theorem startXfer_armed (p : Byte) (st : Nat) : (startXfer p st s).armed = true := by
  simp [startXfer]
@[simp] theorem startXfer_nextT (p : Byte) (st : Nat) : (startXfer p st s).nextT = atLevel s.cfg.level (st + tXfer) s.nextT := by
  simp [startXfer]
@[simp] theorem startXfer_cnt (p : Byte) (st : Nat) : (startXfer p st s).cnt = s.cnt := by
  simp [startXfer]
@[simp] theorem startXfer_cntPhase (p : Byte) (st : Nat) : (startXfer p st s).cntPhase = s.cntPhase := by
  simp [startXfer]
@[simp] theorem startXfer_txd (p : Byte) (st : Nat) : (startXfer p st s).txd = p := by
  simp [startXfer]
@[simp] theorem startXfer_rxd (p : Byte) (st : Nat) : (startXfer p st s).rxd = s.rxd := by
  simp [startXfer]
@[simp] theorem startXfer_xferBusy (p : Byte) (st : Nat) : (startXfer p st s).xferBusy = true := by
  simp [startXfer]
@[simp] theorem startXfer_xferStart (p : Byte) (st : Nat) : (startXfer p st s).xferStart = atLevel s.cfg.level st s.xferStart := by
  simp [startXfer]
@[simp] theorem startXfer_trapped (p : Byte) (st : Nat) : (startXfer p st s).trapped = s.trapped := by
  simp [startXfer]
@[simp] theorem startXfer_fault (p : Byte) (st : Nat) : (startXfer p st s).fault = s.fault := by
  simp [startXfer]
@[simp] theorem startXfer_host (p : Byte) (st : Nat) : (startXfer p st s).host = s.host := by
  simp [startXfer]
@[simp] theorem startXfer_inputs (p : Byte) (st : Nat) : (startXfer p st s).inputs = s.inputs := by
  simp [startXfer]

@[simp] theorem noteSamples_cfg (k : SampleKind) (ts : List Nat) :
    (noteSamples k ts s).cfg = s.cfg := by
  obtain ⟨_, h⟩ := noteSamples_eq k ts s; simp [h]
@[simp] theorem noteSamples_now (k : SampleKind) (ts : List Nat) :
    (noteSamples k ts s).now = s.now := by
  obtain ⟨_, h⟩ := noteSamples_eq k ts s; simp [h]
@[simp] theorem noteSamples_step (k : SampleKind) (ts : List Nat) :
    (noteSamples k ts s).step = s.step := by
  obtain ⟨_, h⟩ := noteSamples_eq k ts s; simp [h]
@[simp] theorem noteSamples_drive (k : SampleKind) (ts : List Nat) :
    (noteSamples k ts s).drive = s.drive := by
  obtain ⟨_, h⟩ := noteSamples_eq k ts s; simp [h]
@[simp] theorem noteSamples_armed (k : SampleKind) (ts : List Nat) :
    (noteSamples k ts s).armed = s.armed := by
  obtain ⟨_, h⟩ := noteSamples_eq k ts s; simp [h]
@[simp] theorem noteSamples_nextT (k : SampleKind) (ts : List Nat) :
    (noteSamples k ts s).nextT = s.nextT := by
  obtain ⟨_, h⟩ := noteSamples_eq k ts s; simp [h]
@[simp] theorem noteSamples_cnt (k : SampleKind) (ts : List Nat) :
    (noteSamples k ts s).cnt = s.cnt := by
  obtain ⟨_, h⟩ := noteSamples_eq k ts s; simp [h]
@[simp] theorem noteSamples_cntPhase (k : SampleKind) (ts : List Nat) :
    (noteSamples k ts s).cntPhase = s.cntPhase := by
  obtain ⟨_, h⟩ := noteSamples_eq k ts s; simp [h]
@[simp] theorem noteSamples_txd (k : SampleKind) (ts : List Nat) :
    (noteSamples k ts s).txd = s.txd := by
  obtain ⟨_, h⟩ := noteSamples_eq k ts s; simp [h]
@[simp] theorem noteSamples_rxd (k : SampleKind) (ts : List Nat) :
    (noteSamples k ts s).rxd = s.rxd := by
  obtain ⟨_, h⟩ := noteSamples_eq k ts s; simp [h]
@[simp] theorem noteSamples_xferBusy (k : SampleKind) (ts : List Nat) :
    (noteSamples k ts s).xferBusy = s.xferBusy := by
  obtain ⟨_, h⟩ := noteSamples_eq k ts s; simp [h]
@[simp] theorem noteSamples_xferStart (k : SampleKind) (ts : List Nat) :
    (noteSamples k ts s).xferStart = s.xferStart := by
  obtain ⟨_, h⟩ := noteSamples_eq k ts s; simp [h]
@[simp] theorem noteSamples_trapped (k : SampleKind) (ts : List Nat) :
    (noteSamples k ts s).trapped = s.trapped := by
  obtain ⟨_, h⟩ := noteSamples_eq k ts s; simp [h]
@[simp] theorem noteSamples_fault (k : SampleKind) (ts : List Nat) :
    (noteSamples k ts s).fault = s.fault := by
  obtain ⟨_, h⟩ := noteSamples_eq k ts s; simp [h]
@[simp] theorem noteSamples_host (k : SampleKind) (ts : List Nat) :
    (noteSamples k ts s).host = s.host := by
  obtain ⟨_, h⟩ := noteSamples_eq k ts s; simp [h]
@[simp] theorem noteSamples_bus (k : SampleKind) (ts : List Nat) :
    (noteSamples k ts s).bus = s.bus := by
  obtain ⟨_, h⟩ := noteSamples_eq k ts s; simp [h]
@[simp] theorem noteSamples_inputs (k : SampleKind) (ts : List Nat) :
    (noteSamples k ts s).inputs = s.inputs := by
  obtain ⟨_, h⟩ := noteSamples_eq k ts s; simp [h]

@[simp] theorem tookSample_cfg (k : SampleKind) : (tookSample k s).cfg = s.cfg := by
  obtain ⟨_, _, h⟩ := tookSample_eq k s; simp [h]
@[simp] theorem tookSample_now (k : SampleKind) : (tookSample k s).now = s.now := by
  obtain ⟨_, _, h⟩ := tookSample_eq k s; simp [h]
@[simp] theorem tookSample_step (k : SampleKind) : (tookSample k s).step = s.step := by
  obtain ⟨_, _, h⟩ := tookSample_eq k s; simp [h]
@[simp] theorem tookSample_drive (k : SampleKind) : (tookSample k s).drive = s.drive := by
  obtain ⟨_, _, h⟩ := tookSample_eq k s; simp [h]
@[simp] theorem tookSample_armed (k : SampleKind) : (tookSample k s).armed = s.armed := by
  obtain ⟨_, _, h⟩ := tookSample_eq k s; simp [h]
@[simp] theorem tookSample_nextT (k : SampleKind) : (tookSample k s).nextT = s.nextT := by
  obtain ⟨_, _, h⟩ := tookSample_eq k s; simp [h]
@[simp] theorem tookSample_cnt (k : SampleKind) : (tookSample k s).cnt = s.cnt := by
  obtain ⟨_, _, h⟩ := tookSample_eq k s; simp [h]
@[simp] theorem tookSample_cntPhase (k : SampleKind) : (tookSample k s).cntPhase = s.cntPhase := by
  obtain ⟨_, _, h⟩ := tookSample_eq k s; simp [h]
@[simp] theorem tookSample_txd (k : SampleKind) : (tookSample k s).txd = s.txd := by
  obtain ⟨_, _, h⟩ := tookSample_eq k s; simp [h]
@[simp] theorem tookSample_rxd (k : SampleKind) : (tookSample k s).rxd = s.rxd := by
  obtain ⟨_, _, h⟩ := tookSample_eq k s; simp [h]
@[simp] theorem tookSample_xferBusy (k : SampleKind) : (tookSample k s).xferBusy = s.xferBusy := by
  obtain ⟨_, _, h⟩ := tookSample_eq k s; simp [h]
@[simp] theorem tookSample_xferStart (k : SampleKind) : (tookSample k s).xferStart = s.xferStart := by
  obtain ⟨_, _, h⟩ := tookSample_eq k s; simp [h]
@[simp] theorem tookSample_trapped (k : SampleKind) : (tookSample k s).trapped = s.trapped := by
  obtain ⟨_, _, h⟩ := tookSample_eq k s; simp [h]
@[simp] theorem tookSample_fault (k : SampleKind) : (tookSample k s).fault = s.fault := by
  obtain ⟨_, _, h⟩ := tookSample_eq k s; simp [h]
@[simp] theorem tookSample_host (k : SampleKind) : (tookSample k s).host = s.host := by
  obtain ⟨_, _, h⟩ := tookSample_eq k s; simp [h]
@[simp] theorem tookSample_bus (k : SampleKind) : (tookSample k s).bus = s.bus := by
  obtain ⟨_, _, h⟩ := tookSample_eq k s; simp [h]

@[simp] theorem noteReady_cfg : (noteReady s).cfg = s.cfg := by
  unfold noteReady; split <;> simp
@[simp] theorem noteReady_now : (noteReady s).now = s.now := by
  unfold noteReady; split <;> simp
@[simp] theorem noteReady_step : (noteReady s).step = s.step := by
  unfold noteReady; split <;> simp
@[simp] theorem noteReady_drive : (noteReady s).drive = s.drive := by
  unfold noteReady; split <;> simp
@[simp] theorem noteReady_armed : (noteReady s).armed = s.armed := by
  unfold noteReady; split <;> simp
@[simp] theorem noteReady_nextT : (noteReady s).nextT = s.nextT := by
  unfold noteReady; split <;> simp
@[simp] theorem noteReady_cnt : (noteReady s).cnt = s.cnt := by
  unfold noteReady; split <;> simp
@[simp] theorem noteReady_cntPhase : (noteReady s).cntPhase = s.cntPhase := by
  unfold noteReady; split <;> simp
@[simp] theorem noteReady_txd : (noteReady s).txd = s.txd := by
  unfold noteReady; split <;> simp
@[simp] theorem noteReady_rxd : (noteReady s).rxd = s.rxd := by
  unfold noteReady; split <;> simp
@[simp] theorem noteReady_xferBusy : (noteReady s).xferBusy = s.xferBusy := by
  unfold noteReady; split <;> simp
@[simp] theorem noteReady_xferStart : (noteReady s).xferStart = s.xferStart := by
  unfold noteReady; split <;> simp
@[simp] theorem noteReady_trapped : (noteReady s).trapped = s.trapped := by
  unfold noteReady; split <;> simp
@[simp] theorem noteReady_fault : (noteReady s).fault = s.fault := by
  unfold noteReady; split <;> simp
@[simp] theorem noteReady_host : (noteReady s).host = s.host := by
  unfold noteReady; split <;> simp
@[simp] theorem noteReady_inputs : (noteReady s).inputs = s.inputs := by
  unfold noteReady; split <;> simp

@[simp] theorem terminal_cfg : (terminal s).cfg = s.cfg := by
  simp [terminal]
@[simp] theorem terminal_now : (terminal s).now = s.now := by
  simp [terminal]
@[simp] theorem terminal_step : (terminal s).step = withReady true s.step := by
  simp [terminal]
@[simp] theorem terminal_drive : (terminal s).drive = s.drive := by
  simp [terminal]
@[simp] theorem terminal_armed : (terminal s).armed = false := by
  simp [terminal]
@[simp] theorem terminal_nextT : (terminal s).nextT = s.nextT := by
  simp [terminal]
@[simp] theorem terminal_cnt : (terminal s).cnt = s.cnt := by
  simp [terminal]
@[simp] theorem terminal_cntPhase : (terminal s).cntPhase = s.cntPhase := by
  simp [terminal]
@[simp] theorem terminal_txd : (terminal s).txd = s.txd := by
  simp [terminal]
@[simp] theorem terminal_rxd : (terminal s).rxd = s.rxd := by
  simp [terminal]
@[simp] theorem terminal_xferBusy : (terminal s).xferBusy = s.xferBusy := by
  simp [terminal]
@[simp] theorem terminal_xferStart : (terminal s).xferStart = s.xferStart := by
  simp [terminal]
@[simp] theorem terminal_trapped : (terminal s).trapped = s.trapped := by
  simp [terminal]
@[simp] theorem terminal_fault : (terminal s).fault = s.fault := by
  simp [terminal]
@[simp] theorem terminal_host : (terminal s).host = s.host := by
  simp [terminal]
@[simp] theorem terminal_inputs : (terminal s).inputs = s.inputs := by
  simp [terminal]

@[simp] theorem noteIssue_cfg (op : BitVec 2) : (noteIssue op s).cfg = s.cfg := by
  simp [noteIssue]
@[simp] theorem noteIssue_now (op : BitVec 2) : (noteIssue op s).now = s.now := by
  simp [noteIssue]
@[simp] theorem noteIssue_step (op : BitVec 2) : (noteIssue op s).step = s.step := by
  simp [noteIssue]
@[simp] theorem noteIssue_drive (op : BitVec 2) : (noteIssue op s).drive = s.drive := by
  simp [noteIssue]
@[simp] theorem noteIssue_armed (op : BitVec 2) : (noteIssue op s).armed = s.armed := by
  simp [noteIssue]
@[simp] theorem noteIssue_nextT (op : BitVec 2) : (noteIssue op s).nextT = s.nextT := by
  simp [noteIssue]
@[simp] theorem noteIssue_cnt (op : BitVec 2) : (noteIssue op s).cnt = s.cnt := by
  simp [noteIssue]
@[simp] theorem noteIssue_cntPhase (op : BitVec 2) : (noteIssue op s).cntPhase = s.cntPhase := by
  simp [noteIssue]
@[simp] theorem noteIssue_txd (op : BitVec 2) : (noteIssue op s).txd = s.txd := by
  simp [noteIssue]
@[simp] theorem noteIssue_rxd (op : BitVec 2) : (noteIssue op s).rxd = s.rxd := by
  simp [noteIssue]
@[simp] theorem noteIssue_xferBusy (op : BitVec 2) : (noteIssue op s).xferBusy = s.xferBusy := by
  simp [noteIssue]
@[simp] theorem noteIssue_xferStart (op : BitVec 2) : (noteIssue op s).xferStart = s.xferStart := by
  simp [noteIssue]
@[simp] theorem noteIssue_trapped (op : BitVec 2) : (noteIssue op s).trapped = s.trapped := by
  simp [noteIssue]
@[simp] theorem noteIssue_fault (op : BitVec 2) : (noteIssue op s).fault = s.fault := by
  simp [noteIssue]
@[simp] theorem noteIssue_host (op : BitVec 2) : (noteIssue op s).host = s.host := by
  simp [noteIssue]
@[simp] theorem noteIssue_slot (op : BitVec 2) : (noteIssue op s).slot = Slot.empty := by
  simp [noteIssue]
@[simp] theorem noteIssue_inputs (op : BitVec 2) : (noteIssue op s).inputs = s.inputs := by
  simp [noteIssue]

@[simp] theorem useLat_cfg : (useLat s).cfg = s.cfg := by
  simp [useLat]
@[simp] theorem useLat_now : (useLat s).now = s.now := by
  simp [useLat]
@[simp] theorem useLat_step : (useLat s).step = s.step := by
  simp [useLat]
@[simp] theorem useLat_drive : (useLat s).drive = s.drive := by
  simp [useLat]
@[simp] theorem useLat_armed : (useLat s).armed = s.armed := by
  simp [useLat]
@[simp] theorem useLat_nextT : (useLat s).nextT = s.nextT := by
  simp [useLat]
@[simp] theorem useLat_cnt : (useLat s).cnt = s.cnt := by
  simp [useLat]
@[simp] theorem useLat_cntPhase : (useLat s).cntPhase = s.cntPhase := by
  simp [useLat]
@[simp] theorem useLat_txd : (useLat s).txd = s.txd := by
  simp [useLat]
@[simp] theorem useLat_rxd : (useLat s).rxd = s.rxd := by
  simp [useLat]
@[simp] theorem useLat_xferBusy : (useLat s).xferBusy = s.xferBusy := by
  simp [useLat]
@[simp] theorem useLat_xferStart : (useLat s).xferStart = s.xferStart := by
  simp [useLat]
@[simp] theorem useLat_trapped : (useLat s).trapped = s.trapped := by
  simp [useLat]
@[simp] theorem useLat_fault : (useLat s).fault = s.fault := by
  simp [useLat]
@[simp] theorem useLat_host : (useLat s).host = s.host := by
  simp [useLat]
@[simp] theorem useLat_bus : (useLat s).bus = s.bus := by
  simp [useLat]
@[simp] theorem useLat_slot : (useLat s).slot = s.slot := by
  simp [useLat]

@[simp] theorem useGap_cfg : (useGap s).cfg = s.cfg := by
  simp [useGap]
@[simp] theorem useGap_now : (useGap s).now = s.now := by
  simp [useGap]
@[simp] theorem useGap_step : (useGap s).step = s.step := by
  simp [useGap]
@[simp] theorem useGap_drive : (useGap s).drive = s.drive := by
  simp [useGap]
@[simp] theorem useGap_armed : (useGap s).armed = s.armed := by
  simp [useGap]
@[simp] theorem useGap_nextT : (useGap s).nextT = s.nextT := by
  simp [useGap]
@[simp] theorem useGap_cnt : (useGap s).cnt = s.cnt := by
  simp [useGap]
@[simp] theorem useGap_cntPhase : (useGap s).cntPhase = s.cntPhase := by
  simp [useGap]
@[simp] theorem useGap_txd : (useGap s).txd = s.txd := by
  simp [useGap]
@[simp] theorem useGap_rxd : (useGap s).rxd = s.rxd := by
  simp [useGap]
@[simp] theorem useGap_xferBusy : (useGap s).xferBusy = s.xferBusy := by
  simp [useGap]
@[simp] theorem useGap_xferStart : (useGap s).xferStart = s.xferStart := by
  simp [useGap]
@[simp] theorem useGap_trapped : (useGap s).trapped = s.trapped := by
  simp [useGap]
@[simp] theorem useGap_fault : (useGap s).fault = s.fault := by
  simp [useGap]
@[simp] theorem useGap_host : (useGap s).host = s.host := by
  simp [useGap]
@[simp] theorem useGap_bus : (useGap s).bus = s.bus := by
  simp [useGap]
@[simp] theorem useGap_slot : (useGap s).slot = s.slot := by
  simp [useGap]

@[simp] theorem useTie_cfg : (useTie s).cfg = s.cfg := by
  simp [useTie]
@[simp] theorem useTie_now : (useTie s).now = s.now := by
  simp [useTie]
@[simp] theorem useTie_step : (useTie s).step = s.step := by
  simp [useTie]
@[simp] theorem useTie_drive : (useTie s).drive = s.drive := by
  simp [useTie]
@[simp] theorem useTie_armed : (useTie s).armed = s.armed := by
  simp [useTie]
@[simp] theorem useTie_nextT : (useTie s).nextT = s.nextT := by
  simp [useTie]
@[simp] theorem useTie_cnt : (useTie s).cnt = s.cnt := by
  simp [useTie]
@[simp] theorem useTie_cntPhase : (useTie s).cntPhase = s.cntPhase := by
  simp [useTie]
@[simp] theorem useTie_txd : (useTie s).txd = s.txd := by
  simp [useTie]
@[simp] theorem useTie_rxd : (useTie s).rxd = s.rxd := by
  simp [useTie]
@[simp] theorem useTie_xferBusy : (useTie s).xferBusy = s.xferBusy := by
  simp [useTie]
@[simp] theorem useTie_xferStart : (useTie s).xferStart = s.xferStart := by
  simp [useTie]
@[simp] theorem useTie_trapped : (useTie s).trapped = s.trapped := by
  simp [useTie]
@[simp] theorem useTie_fault : (useTie s).fault = s.fault := by
  simp [useTie]
@[simp] theorem useTie_host : (useTie s).host = s.host := by
  simp [useTie]
@[simp] theorem useTie_bus : (useTie s).bus = s.bus := by
  simp [useTie]
@[simp] theorem useTie_slot : (useTie s).slot = s.slot := by
  simp [useTie]

@[simp] theorem useSample_cfg : (useSample s).cfg = s.cfg := by
  simp [useSample]
@[simp] theorem useSample_now : (useSample s).now = s.now := by
  simp [useSample]
@[simp] theorem useSample_step : (useSample s).step = s.step := by
  simp [useSample]
@[simp] theorem useSample_drive : (useSample s).drive = s.drive := by
  simp [useSample]
@[simp] theorem useSample_armed : (useSample s).armed = s.armed := by
  simp [useSample]
@[simp] theorem useSample_nextT : (useSample s).nextT = s.nextT := by
  simp [useSample]
@[simp] theorem useSample_cnt : (useSample s).cnt = s.cnt := by
  simp [useSample]
@[simp] theorem useSample_cntPhase : (useSample s).cntPhase = s.cntPhase := by
  simp [useSample]
@[simp] theorem useSample_txd : (useSample s).txd = s.txd := by
  simp [useSample]
@[simp] theorem useSample_rxd : (useSample s).rxd = s.rxd := by
  simp [useSample]
@[simp] theorem useSample_xferBusy : (useSample s).xferBusy = s.xferBusy := by
  simp [useSample]
@[simp] theorem useSample_xferStart : (useSample s).xferStart = s.xferStart := by
  simp [useSample]
@[simp] theorem useSample_trapped : (useSample s).trapped = s.trapped := by
  simp [useSample]
@[simp] theorem useSample_fault : (useSample s).fault = s.fault := by
  simp [useSample]
@[simp] theorem useSample_host : (useSample s).host = s.host := by
  simp [useSample]
@[simp] theorem useSample_bus : (useSample s).bus = s.bus := by
  simp [useSample]
@[simp] theorem useSample_slot : (useSample s).slot = s.slot := by
  simp [useSample]

@[simp] theorem useByte_cfg : (useByte s).cfg = s.cfg := by
  simp [useByte]
@[simp] theorem useByte_now : (useByte s).now = s.now := by
  simp [useByte]
@[simp] theorem useByte_step : (useByte s).step = s.step := by
  simp [useByte]
@[simp] theorem useByte_drive : (useByte s).drive = s.drive := by
  simp [useByte]
@[simp] theorem useByte_armed : (useByte s).armed = s.armed := by
  simp [useByte]
@[simp] theorem useByte_nextT : (useByte s).nextT = s.nextT := by
  simp [useByte]
@[simp] theorem useByte_cnt : (useByte s).cnt = s.cnt := by
  simp [useByte]
@[simp] theorem useByte_cntPhase : (useByte s).cntPhase = s.cntPhase := by
  simp [useByte]
@[simp] theorem useByte_txd : (useByte s).txd = s.txd := by
  simp [useByte]
@[simp] theorem useByte_rxd : (useByte s).rxd = s.rxd := by
  simp [useByte]
@[simp] theorem useByte_xferBusy : (useByte s).xferBusy = s.xferBusy := by
  simp [useByte]
@[simp] theorem useByte_xferStart : (useByte s).xferStart = s.xferStart := by
  simp [useByte]
@[simp] theorem useByte_trapped : (useByte s).trapped = s.trapped := by
  simp [useByte]
@[simp] theorem useByte_fault : (useByte s).fault = s.fault := by
  simp [useByte]
@[simp] theorem useByte_host : (useByte s).host = s.host := by
  simp [useByte]
@[simp] theorem useByte_bus : (useByte s).bus = s.bus := by
  simp [useByte]
@[simp] theorem useByte_slot : (useByte s).slot = s.slot := by
  simp [useByte]

@[simp] theorem useReset_cfg : (useReset s).cfg = s.cfg := by
  simp [useReset]
@[simp] theorem useReset_now : (useReset s).now = s.now := by
  simp [useReset]
@[simp] theorem useReset_step : (useReset s).step = s.step := by
  simp [useReset]
@[simp] theorem useReset_drive : (useReset s).drive = s.drive := by
  simp [useReset]
@[simp] theorem useReset_armed : (useReset s).armed = s.armed := by
  simp [useReset]
@[simp] theorem useReset_nextT : (useReset s).nextT = s.nextT := by
  simp [useReset]
@[simp] theorem useReset_cnt : (useReset s).cnt = s.cnt := by
  simp [useReset]
@[simp] theorem useReset_cntPhase : (useReset s).cntPhase = s.cntPhase := by
  simp [useReset]
@[simp] theorem useReset_txd : (useReset s).txd = s.txd := by
  simp [useReset]
@[simp] theorem useReset_rxd : (useReset s).rxd = s.rxd := by
  simp [useReset]
@[simp] theorem useReset_xferBusy : (useReset s).xferBusy = s.xferBusy := by
  simp [useReset]
@[simp] theorem useReset_xferStart : (useReset s).xferStart = s.xferStart := by
  simp [useReset]
@[simp] theorem useReset_trapped : (useReset s).trapped = s.trapped := by
  simp [useReset]
@[simp] theorem useReset_fault : (useReset s).fault = s.fault := by
  simp [useReset]
@[simp] theorem useReset_host : (useReset s).host = s.host := by
  simp [useReset]
@[simp] theorem useReset_bus : (useReset s).bus = s.bus := by
  simp [useReset]
@[simp] theorem useReset_slot : (useReset s).slot = s.slot := by
  simp [useReset]

@[simp] theorem writeReg_cfg (rd : Reg) (v : Byte) : (writeReg rd v s).cfg = s.cfg := by
  simp [writeReg]
@[simp] theorem writeReg_now (rd : Reg) (v : Byte) : (writeReg rd v s).now = s.now := by
  simp [writeReg]
@[simp] theorem writeReg_step (rd : Reg) (v : Byte) : (writeReg rd v s).step = s.step := by
  simp [writeReg]
@[simp] theorem writeReg_drive (rd : Reg) (v : Byte) : (writeReg rd v s).drive = s.drive := by
  simp [writeReg]
@[simp] theorem writeReg_armed (rd : Reg) (v : Byte) : (writeReg rd v s).armed = s.armed := by
  simp [writeReg]
@[simp] theorem writeReg_nextT (rd : Reg) (v : Byte) : (writeReg rd v s).nextT = s.nextT := by
  simp [writeReg]
@[simp] theorem writeReg_cnt (rd : Reg) (v : Byte) : (writeReg rd v s).cnt = s.cnt := by
  simp [writeReg]
@[simp] theorem writeReg_cntPhase (rd : Reg) (v : Byte) : (writeReg rd v s).cntPhase = s.cntPhase := by
  simp [writeReg]
@[simp] theorem writeReg_txd (rd : Reg) (v : Byte) : (writeReg rd v s).txd = s.txd := by
  simp [writeReg]
@[simp] theorem writeReg_rxd (rd : Reg) (v : Byte) : (writeReg rd v s).rxd = s.rxd := by
  simp [writeReg]
@[simp] theorem writeReg_xferBusy (rd : Reg) (v : Byte) : (writeReg rd v s).xferBusy = s.xferBusy := by
  simp [writeReg]
@[simp] theorem writeReg_xferStart (rd : Reg) (v : Byte) : (writeReg rd v s).xferStart = s.xferStart := by
  simp [writeReg]
@[simp] theorem writeReg_trapped (rd : Reg) (v : Byte) : (writeReg rd v s).trapped = s.trapped := by
  simp [writeReg]
@[simp] theorem writeReg_fault (rd : Reg) (v : Byte) : (writeReg rd v s).fault = s.fault := by
  simp [writeReg]
@[simp] theorem writeReg_bus (rd : Reg) (v : Byte) : (writeReg rd v s).bus = s.bus := by
  simp [writeReg]
@[simp] theorem writeReg_slot (rd : Reg) (v : Byte) : (writeReg rd v s).slot = s.slot := by
  simp [writeReg]
@[simp] theorem writeReg_inputs (rd : Reg) (v : Byte) : (writeReg rd v s).inputs = s.inputs := by
  simp [writeReg]

@[simp] theorem pushLines_cfg (ls : List HostOp) : (pushLines ls s).cfg = s.cfg := by
  simp [pushLines]
@[simp] theorem pushLines_now (ls : List HostOp) : (pushLines ls s).now = s.now := by
  simp [pushLines]
@[simp] theorem pushLines_step (ls : List HostOp) : (pushLines ls s).step = s.step := by
  simp [pushLines]
@[simp] theorem pushLines_drive (ls : List HostOp) : (pushLines ls s).drive = s.drive := by
  simp [pushLines]
@[simp] theorem pushLines_armed (ls : List HostOp) : (pushLines ls s).armed = s.armed := by
  simp [pushLines]
@[simp] theorem pushLines_nextT (ls : List HostOp) : (pushLines ls s).nextT = s.nextT := by
  simp [pushLines]
@[simp] theorem pushLines_cnt (ls : List HostOp) : (pushLines ls s).cnt = s.cnt := by
  simp [pushLines]
@[simp] theorem pushLines_cntPhase (ls : List HostOp) : (pushLines ls s).cntPhase = s.cntPhase := by
  simp [pushLines]
@[simp] theorem pushLines_txd (ls : List HostOp) : (pushLines ls s).txd = s.txd := by
  simp [pushLines]
@[simp] theorem pushLines_rxd (ls : List HostOp) : (pushLines ls s).rxd = s.rxd := by
  simp [pushLines]
@[simp] theorem pushLines_xferBusy (ls : List HostOp) : (pushLines ls s).xferBusy = s.xferBusy := by
  simp [pushLines]
@[simp] theorem pushLines_xferStart (ls : List HostOp) : (pushLines ls s).xferStart = s.xferStart := by
  simp [pushLines]
@[simp] theorem pushLines_trapped (ls : List HostOp) : (pushLines ls s).trapped = s.trapped := by
  simp [pushLines]
@[simp] theorem pushLines_fault (ls : List HostOp) : (pushLines ls s).fault = s.fault := by
  simp [pushLines]
@[simp] theorem pushLines_bus (ls : List HostOp) : (pushLines ls s).bus = s.bus := by
  simp [pushLines]
@[simp] theorem pushLines_slot (ls : List HostOp) : (pushLines ls s).slot = s.slot := by
  simp [pushLines]
@[simp] theorem pushLines_inputs (ls : List HostOp) : (pushLines ls s).inputs = s.inputs := by
  simp [pushLines]

@[simp] theorem passLine_cfg : (passLine s).cfg = s.cfg := by
  unfold passLine; split <;> simp
@[simp] theorem passLine_now : (passLine s).now = s.now := by
  unfold passLine; split <;> simp
@[simp] theorem passLine_step : (passLine s).step = s.step := by
  unfold passLine; split <;> simp
@[simp] theorem passLine_drive : (passLine s).drive = s.drive := by
  unfold passLine; split <;> simp
@[simp] theorem passLine_armed : (passLine s).armed = s.armed := by
  unfold passLine; split <;> simp
@[simp] theorem passLine_nextT : (passLine s).nextT = s.nextT := by
  unfold passLine; split <;> simp
@[simp] theorem passLine_cnt : (passLine s).cnt = s.cnt := by
  unfold passLine; split <;> simp
@[simp] theorem passLine_cntPhase : (passLine s).cntPhase = s.cntPhase := by
  unfold passLine; split <;> simp
@[simp] theorem passLine_txd : (passLine s).txd = s.txd := by
  unfold passLine; split <;> simp
@[simp] theorem passLine_rxd : (passLine s).rxd = s.rxd := by
  unfold passLine; split <;> simp
@[simp] theorem passLine_xferBusy : (passLine s).xferBusy = s.xferBusy := by
  unfold passLine; split <;> simp
@[simp] theorem passLine_xferStart : (passLine s).xferStart = s.xferStart := by
  unfold passLine; split <;> simp
@[simp] theorem passLine_trapped : (passLine s).trapped = s.trapped := by
  unfold passLine; split <;> simp
@[simp] theorem passLine_fault : (passLine s).fault = s.fault := by
  unfold passLine; split <;> simp
@[simp] theorem passLine_bus : (passLine s).bus = s.bus := by
  unfold passLine; split <;> simp
@[simp] theorem passLine_slot : (passLine s).slot = s.slot := by
  unfold passLine; split <;> simp
@[simp] theorem passLine_inputs : (passLine s).inputs = s.inputs := by
  unfold passLine; split <;> simp

@[simp] theorem hostLocal_cfg (op : HostOp) : (hostLocal op s).cfg = s.cfg := by
  cases op <;> simp [hostLocal] <;> split <;> simp
@[simp] theorem hostLocal_now (op : HostOp) : (hostLocal op s).now = s.now := by
  cases op <;> simp [hostLocal] <;> split <;> simp
@[simp] theorem hostLocal_step (op : HostOp) : (hostLocal op s).step = s.step := by
  cases op <;> simp [hostLocal] <;> split <;> simp
@[simp] theorem hostLocal_drive (op : HostOp) : (hostLocal op s).drive = s.drive := by
  cases op <;> simp [hostLocal] <;> split <;> simp
@[simp] theorem hostLocal_armed (op : HostOp) : (hostLocal op s).armed = s.armed := by
  cases op <;> simp [hostLocal] <;> split <;> simp
@[simp] theorem hostLocal_nextT (op : HostOp) : (hostLocal op s).nextT = s.nextT := by
  cases op <;> simp [hostLocal] <;> split <;> simp
@[simp] theorem hostLocal_cnt (op : HostOp) : (hostLocal op s).cnt = s.cnt := by
  cases op <;> simp [hostLocal] <;> split <;> simp
@[simp] theorem hostLocal_cntPhase (op : HostOp) : (hostLocal op s).cntPhase = s.cntPhase := by
  cases op <;> simp [hostLocal] <;> split <;> simp
@[simp] theorem hostLocal_txd (op : HostOp) : (hostLocal op s).txd = s.txd := by
  cases op <;> simp [hostLocal] <;> split <;> simp
@[simp] theorem hostLocal_rxd (op : HostOp) : (hostLocal op s).rxd = s.rxd := by
  cases op <;> simp [hostLocal] <;> split <;> simp
@[simp] theorem hostLocal_xferBusy (op : HostOp) : (hostLocal op s).xferBusy = s.xferBusy := by
  cases op <;> simp [hostLocal] <;> split <;> simp
@[simp] theorem hostLocal_xferStart (op : HostOp) : (hostLocal op s).xferStart = s.xferStart := by
  cases op <;> simp [hostLocal] <;> split <;> simp
@[simp] theorem hostLocal_trapped (op : HostOp) : (hostLocal op s).trapped = s.trapped := by
  cases op <;> simp [hostLocal] <;> split <;> simp
@[simp] theorem hostLocal_fault (op : HostOp) : (hostLocal op s).fault = s.fault := by
  cases op <;> simp [hostLocal] <;> split <;> simp
@[simp] theorem hostLocal_bus (op : HostOp) : (hostLocal op s).bus = s.bus := by
  cases op <;> simp [hostLocal] <;> split <;> simp
@[simp] theorem hostLocal_slot (op : HostOp) : (hostLocal op s).slot = s.slot := by
  cases op <;> simp [hostLocal] <;> split <;> simp
@[simp] theorem hostLocal_inputs (op : HostOp) : (hostLocal op s).inputs = s.inputs := by
  cases op <;> simp [hostLocal] <;> split <;> simp

@[simp] theorem completeUntimed_cfg : (completeUntimed s).cfg = s.cfg := by
  simp [completeUntimed]
@[simp] theorem completeUntimed_now : (completeUntimed s).now = s.now := by
  simp [completeUntimed]
@[simp] theorem completeUntimed_step : (completeUntimed s).step = s.step := by
  simp [completeUntimed]
@[simp] theorem completeUntimed_drive : (completeUntimed s).drive = cellDrive s.txd 7 := by
  simp [completeUntimed]
@[simp] theorem completeUntimed_armed : (completeUntimed s).armed = s.armed := by
  simp [completeUntimed]
@[simp] theorem completeUntimed_nextT : (completeUntimed s).nextT = s.nextT := by
  simp [completeUntimed]
@[simp] theorem completeUntimed_cnt : (completeUntimed s).cnt = s.cnt := by
  simp [completeUntimed]
@[simp] theorem completeUntimed_cntPhase : (completeUntimed s).cntPhase = s.cntPhase := by
  simp [completeUntimed]
@[simp] theorem completeUntimed_txd : (completeUntimed s).txd = s.txd := by
  simp [completeUntimed]
@[simp] theorem completeUntimed_xferBusy : (completeUntimed s).xferBusy = false := by
  simp [completeUntimed]
@[simp] theorem completeUntimed_xferStart : (completeUntimed s).xferStart = s.xferStart := by
  simp [completeUntimed]
@[simp] theorem completeUntimed_trapped : (completeUntimed s).trapped = s.trapped := by
  simp [completeUntimed]
@[simp] theorem completeUntimed_fault : (completeUntimed s).fault = s.fault := by
  simp [completeUntimed]
@[simp] theorem completeUntimed_host : (completeUntimed s).host = s.host := by
  simp [completeUntimed]
@[simp] theorem completeUntimed_bus : (completeUntimed s).bus = s.bus := by
  simp [completeUntimed]
@[simp] theorem completeUntimed_slot : (completeUntimed s).slot = s.slot := by
  simp [completeUntimed]

@[simp] theorem applyCell_cfg (t : Nat) (e : CellEvent) : (applyCell t e s).cfg = s.cfg := by
  cases e <;> simp [applyCell]
@[simp] theorem applyCell_now (t : Nat) (e : CellEvent) : (applyCell t e s).now = s.now := by
  cases e <;> simp [applyCell]
@[simp] theorem applyCell_step (t : Nat) (e : CellEvent) : (applyCell t e s).step = s.step := by
  cases e <;> simp [applyCell]
@[simp] theorem applyCell_armed (t : Nat) (e : CellEvent) : (applyCell t e s).armed = s.armed := by
  cases e <;> simp [applyCell]
@[simp] theorem applyCell_nextT (t : Nat) (e : CellEvent) : (applyCell t e s).nextT = s.nextT := by
  cases e <;> simp [applyCell]
@[simp] theorem applyCell_cnt (t : Nat) (e : CellEvent) : (applyCell t e s).cnt = s.cnt := by
  cases e <;> simp [applyCell]
@[simp] theorem applyCell_cntPhase (t : Nat) (e : CellEvent) : (applyCell t e s).cntPhase = s.cntPhase := by
  cases e <;> simp [applyCell]
@[simp] theorem applyCell_txd (t : Nat) (e : CellEvent) : (applyCell t e s).txd = s.txd := by
  cases e <;> simp [applyCell]
@[simp] theorem applyCell_xferStart (t : Nat) (e : CellEvent) : (applyCell t e s).xferStart = s.xferStart := by
  cases e <;> simp [applyCell]
@[simp] theorem applyCell_trapped (t : Nat) (e : CellEvent) : (applyCell t e s).trapped = s.trapped := by
  cases e <;> simp [applyCell]
@[simp] theorem applyCell_fault (t : Nat) (e : CellEvent) : (applyCell t e s).fault = s.fault := by
  cases e <;> simp [applyCell]
@[simp] theorem applyCell_host (t : Nat) (e : CellEvent) : (applyCell t e s).host = s.host := by
  cases e <;> simp [applyCell]
@[simp] theorem applyCell_inputs (t : Nat) (e : CellEvent) : (applyCell t e s).inputs = s.inputs := by
  cases e <;> simp [applyCell]

@[simp] theorem applyCells_cfg (lo hi : Nat) (l : List (Nat × CellEvent)) :
    (applyCells lo hi l s).cfg = s.cfg := by
  induction l generalizing s with
  | nil => rfl
  | cons e rest ih => simp only [applyCells, ih]; split <;> simp
@[simp] theorem applyCells_now (lo hi : Nat) (l : List (Nat × CellEvent)) :
    (applyCells lo hi l s).now = s.now := by
  induction l generalizing s with
  | nil => rfl
  | cons e rest ih => simp only [applyCells, ih]; split <;> simp
@[simp] theorem applyCells_step (lo hi : Nat) (l : List (Nat × CellEvent)) :
    (applyCells lo hi l s).step = s.step := by
  induction l generalizing s with
  | nil => rfl
  | cons e rest ih => simp only [applyCells, ih]; split <;> simp
@[simp] theorem applyCells_armed (lo hi : Nat) (l : List (Nat × CellEvent)) :
    (applyCells lo hi l s).armed = s.armed := by
  induction l generalizing s with
  | nil => rfl
  | cons e rest ih => simp only [applyCells, ih]; split <;> simp
@[simp] theorem applyCells_nextT (lo hi : Nat) (l : List (Nat × CellEvent)) :
    (applyCells lo hi l s).nextT = s.nextT := by
  induction l generalizing s with
  | nil => rfl
  | cons e rest ih => simp only [applyCells, ih]; split <;> simp
@[simp] theorem applyCells_cnt (lo hi : Nat) (l : List (Nat × CellEvent)) :
    (applyCells lo hi l s).cnt = s.cnt := by
  induction l generalizing s with
  | nil => rfl
  | cons e rest ih => simp only [applyCells, ih]; split <;> simp
@[simp] theorem applyCells_cntPhase (lo hi : Nat) (l : List (Nat × CellEvent)) :
    (applyCells lo hi l s).cntPhase = s.cntPhase := by
  induction l generalizing s with
  | nil => rfl
  | cons e rest ih => simp only [applyCells, ih]; split <;> simp
@[simp] theorem applyCells_txd (lo hi : Nat) (l : List (Nat × CellEvent)) :
    (applyCells lo hi l s).txd = s.txd := by
  induction l generalizing s with
  | nil => rfl
  | cons e rest ih => simp only [applyCells, ih]; split <;> simp
@[simp] theorem applyCells_xferStart (lo hi : Nat) (l : List (Nat × CellEvent)) :
    (applyCells lo hi l s).xferStart = s.xferStart := by
  induction l generalizing s with
  | nil => rfl
  | cons e rest ih => simp only [applyCells, ih]; split <;> simp
@[simp] theorem applyCells_trapped (lo hi : Nat) (l : List (Nat × CellEvent)) :
    (applyCells lo hi l s).trapped = s.trapped := by
  induction l generalizing s with
  | nil => rfl
  | cons e rest ih => simp only [applyCells, ih]; split <;> simp
@[simp] theorem applyCells_fault (lo hi : Nat) (l : List (Nat × CellEvent)) :
    (applyCells lo hi l s).fault = s.fault := by
  induction l generalizing s with
  | nil => rfl
  | cons e rest ih => simp only [applyCells, ih]; split <;> simp
@[simp] theorem applyCells_host (lo hi : Nat) (l : List (Nat × CellEvent)) :
    (applyCells lo hi l s).host = s.host := by
  induction l generalizing s with
  | nil => rfl
  | cons e rest ih => simp only [applyCells, ih]; split <;> simp
@[simp] theorem applyCells_inputs (lo hi : Nat) (l : List (Nat × CellEvent)) :
    (applyCells lo hi l s).inputs = s.inputs := by
  induction l generalizing s with
  | nil => rfl
  | cons e rest ih => simp only [applyCells, ih]; split <;> simp

@[simp] theorem runCounter_cfg (t : Nat) : (runCounter t s).cfg = s.cfg := by
  simp [runCounter]
@[simp] theorem runCounter_now (t : Nat) : (runCounter t s).now = s.now := by
  simp [runCounter]
@[simp] theorem runCounter_step (t : Nat) : (runCounter t s).step = s.step := by
  simp [runCounter]
@[simp] theorem runCounter_drive (t : Nat) : (runCounter t s).drive = s.drive := by
  simp [runCounter]
@[simp] theorem runCounter_armed (t : Nat) : (runCounter t s).armed = s.armed := by
  simp [runCounter]
@[simp] theorem runCounter_nextT (t : Nat) : (runCounter t s).nextT = s.nextT := by
  simp [runCounter]
@[simp] theorem runCounter_txd (t : Nat) : (runCounter t s).txd = s.txd := by
  simp [runCounter]
@[simp] theorem runCounter_rxd (t : Nat) : (runCounter t s).rxd = s.rxd := by
  simp [runCounter]
@[simp] theorem runCounter_xferBusy (t : Nat) : (runCounter t s).xferBusy = s.xferBusy := by
  simp [runCounter]
@[simp] theorem runCounter_xferStart (t : Nat) : (runCounter t s).xferStart = s.xferStart := by
  simp [runCounter]
@[simp] theorem runCounter_trapped (t : Nat) : (runCounter t s).trapped = s.trapped := by
  simp [runCounter]
@[simp] theorem runCounter_fault (t : Nat) : (runCounter t s).fault = s.fault := by
  simp [runCounter]
@[simp] theorem runCounter_host (t : Nat) : (runCounter t s).host = s.host := by
  simp [runCounter]
@[simp] theorem runCounter_bus (t : Nat) : (runCounter t s).bus = s.bus := by
  simp [runCounter]
@[simp] theorem runCounter_slot (t : Nat) : (runCounter t s).slot = s.slot := by
  simp [runCounter]
@[simp] theorem runCounter_inputs (t : Nat) : (runCounter t s).inputs = s.inputs := by
  simp [runCounter]
@[simp] theorem runCounter_cnt (t : Nat) :
    (runCounter t s).cnt = s.cnt + BitVec.ofNat 16 (countsBetween s.cntPhase s.now t) := by
  simp [runCounter]
@[simp] theorem runCounter_cntPhase (t : Nat) :
    (runCounter t s).cntPhase = s.cntPhase := by
  simp [runCounter]

@[simp] theorem runXfer_cfg (t : Nat) : (runXfer t s).cfg = s.cfg := by
  unfold runXfer; split <;> simp
@[simp] theorem runXfer_now (t : Nat) : (runXfer t s).now = s.now := by
  unfold runXfer; split <;> simp
@[simp] theorem runXfer_step (t : Nat) : (runXfer t s).step = s.step := by
  unfold runXfer; split <;> simp
@[simp] theorem runXfer_armed (t : Nat) : (runXfer t s).armed = s.armed := by
  unfold runXfer; split <;> simp
@[simp] theorem runXfer_nextT (t : Nat) : (runXfer t s).nextT = s.nextT := by
  unfold runXfer; split <;> simp
@[simp] theorem runXfer_cnt (t : Nat) : (runXfer t s).cnt = s.cnt := by
  unfold runXfer; split <;> simp
@[simp] theorem runXfer_cntPhase (t : Nat) : (runXfer t s).cntPhase = s.cntPhase := by
  unfold runXfer; split <;> simp
@[simp] theorem runXfer_txd (t : Nat) : (runXfer t s).txd = s.txd := by
  unfold runXfer; split <;> simp
@[simp] theorem runXfer_xferStart (t : Nat) : (runXfer t s).xferStart = s.xferStart := by
  unfold runXfer; split <;> simp
@[simp] theorem runXfer_trapped (t : Nat) : (runXfer t s).trapped = s.trapped := by
  unfold runXfer; split <;> simp
@[simp] theorem runXfer_fault (t : Nat) : (runXfer t s).fault = s.fault := by
  unfold runXfer; split <;> simp
@[simp] theorem runXfer_host (t : Nat) : (runXfer t s).host = s.host := by
  unfold runXfer; split <;> simp
@[simp] theorem runXfer_inputs (t : Nat) : (runXfer t s).inputs = s.inputs := by
  unfold runXfer; split <;> simp

@[simp] theorem advanceTo_cfg (t : Nat) : (advanceTo t s).cfg = s.cfg := by
  unfold advanceTo; split <;> (try split) <;> simp
@[simp] theorem advanceTo_step (t : Nat) : (advanceTo t s).step = s.step := by
  unfold advanceTo; split <;> (try split) <;> simp
@[simp] theorem advanceTo_armed (t : Nat) : (advanceTo t s).armed = s.armed := by
  unfold advanceTo; split <;> (try split) <;> simp
@[simp] theorem advanceTo_nextT (t : Nat) : (advanceTo t s).nextT = s.nextT := by
  unfold advanceTo; split <;> (try split) <;> simp
@[simp] theorem advanceTo_txd (t : Nat) : (advanceTo t s).txd = s.txd := by
  unfold advanceTo; split <;> (try split) <;> simp
@[simp] theorem advanceTo_xferStart (t : Nat) : (advanceTo t s).xferStart = s.xferStart := by
  unfold advanceTo; split <;> (try split) <;> simp
@[simp] theorem advanceTo_trapped (t : Nat) : (advanceTo t s).trapped = s.trapped := by
  unfold advanceTo; split <;> (try split) <;> simp
@[simp] theorem advanceTo_fault (t : Nat) : (advanceTo t s).fault = s.fault := by
  unfold advanceTo; split <;> (try split) <;> simp
@[simp] theorem advanceTo_host (t : Nat) : (advanceTo t s).host = s.host := by
  unfold advanceTo; split <;> (try split) <;> simp
@[simp] theorem advanceTo_inputs (t : Nat) : (advanceTo t s).inputs = s.inputs := by
  unfold advanceTo; split <;> (try split) <;> simp

@[simp] theorem accept_cfg (w : Byte) : (accept w s).cfg = s.cfg := by
  by_cases h : s.cfg.engine = .timer <;> simp [accept_timer, accept_shift, h]
@[simp] theorem accept_now (w : Byte) : (accept w s).now = s.now := by
  by_cases h : s.cfg.engine = .timer <;> simp [accept_timer, accept_shift, h]
@[simp] theorem accept_step (w : Byte) : (accept w s).step = issuedStep w := by
  by_cases h : s.cfg.engine = .timer <;> simp [accept_timer, accept_shift, h]
@[simp] theorem accept_armed (w : Byte) : (accept w s).armed = true := by
  by_cases h : s.cfg.engine = .timer <;> simp [accept_timer, accept_shift, h]
@[simp] theorem accept_rxd (w : Byte) : (accept w s).rxd = s.rxd := by
  by_cases h : s.cfg.engine = .timer <;> simp [accept_timer, accept_shift, h]
@[simp] theorem accept_trapped (w : Byte) : (accept w s).trapped = s.trapped := by
  by_cases h : s.cfg.engine = .timer <;> simp [accept_timer, accept_shift, h]
@[simp] theorem accept_fault (w : Byte) : (accept w s).fault = s.fault := by
  by_cases h : s.cfg.engine = .timer <;> simp [accept_timer, accept_shift, h]
@[simp] theorem accept_host (w : Byte) : (accept w s).host = s.host := by
  by_cases h : s.cfg.engine = .timer <;> simp [accept_timer, accept_shift, h]
@[simp] theorem accept_inputs (w : Byte) : (accept w s).inputs = s.inputs := by
  by_cases h : s.cfg.engine = .timer <;> simp [accept_timer, accept_shift, h]

end Sys2Proof.Machine
end

