-- ==== Sys2Proof/Laws/Agents.lean ====
section
/-! SUPPORT. What a turn can do, said once (rules R58, R107, R108): the frame of each agent's start,
and one inversion lemma for each of the step's parts. -/

namespace Sys2Proof.Machine

variable (s : State)

@[simp] theorem settleTie_cfg : (settleTie s).cfg = s.cfg := by
  unfold settleTie; split <;> (try split) <;> simp
@[simp] theorem settleTie_now : (settleTie s).now = s.now := by
  unfold settleTie; split <;> (try split) <;> simp
@[simp] theorem settleTie_step : (settleTie s).step = s.step := by
  unfold settleTie; split <;> (try split) <;> simp
@[simp] theorem settleTie_drive : (settleTie s).drive = s.drive := by
  unfold settleTie; split <;> (try split) <;> simp
@[simp] theorem settleTie_armed : (settleTie s).armed = s.armed := by
  unfold settleTie; split <;> (try split) <;> simp
@[simp] theorem settleTie_nextT : (settleTie s).nextT = s.nextT := by
  unfold settleTie; split <;> (try split) <;> simp
@[simp] theorem settleTie_cnt : (settleTie s).cnt = s.cnt := by
  unfold settleTie; split <;> (try split) <;> simp
@[simp] theorem settleTie_cntPhase : (settleTie s).cntPhase = s.cntPhase := by
  unfold settleTie; split <;> (try split) <;> simp
@[simp] theorem settleTie_txd : (settleTie s).txd = s.txd := by
  unfold settleTie; split <;> (try split) <;> simp
@[simp] theorem settleTie_rxd : (settleTie s).rxd = s.rxd := by
  unfold settleTie; split <;> (try split) <;> simp
@[simp] theorem settleTie_xferBusy : (settleTie s).xferBusy = s.xferBusy := by
  unfold settleTie; split <;> (try split) <;> simp
@[simp] theorem settleTie_xferStart : (settleTie s).xferStart = s.xferStart := by
  unfold settleTie; split <;> (try split) <;> simp
@[simp] theorem settleTie_trapped : (settleTie s).trapped = s.trapped := by
  unfold settleTie; split <;> (try split) <;> simp
@[simp] theorem settleTie_fault : (settleTie s).fault = s.fault := by
  unfold settleTie; split <;> (try split) <;> simp
@[simp] theorem settleTie_host : (settleTie s).host = s.host := by
  unfold settleTie; split <;> (try split) <;> simp
@[simp] theorem settleTie_bus : (settleTie s).bus = s.bus := by
  unfold settleTie; split <;> (try split) <;> simp
@[simp] theorem settleTie_slot : (settleTie s).slot = s.slot := by
  unfold settleTie; split <;> (try split) <;> simp

@[simp] theorem enterHost_cfg : (enterHost s).cfg = s.cfg := by
  simp [enterHost]
@[simp] theorem enterHost_now : (enterHost s).now = s.now := by
  simp [enterHost]
@[simp] theorem enterHost_step : (enterHost s).step = s.step := by
  simp [enterHost]
@[simp] theorem enterHost_drive : (enterHost s).drive = s.drive := by
  simp [enterHost]
@[simp] theorem enterHost_armed : (enterHost s).armed = s.armed := by
  simp [enterHost]
@[simp] theorem enterHost_nextT : (enterHost s).nextT = s.nextT := by
  simp [enterHost]
@[simp] theorem enterHost_cnt : (enterHost s).cnt = s.cnt := by
  simp [enterHost]
@[simp] theorem enterHost_cntPhase : (enterHost s).cntPhase = s.cntPhase := by
  simp [enterHost]
@[simp] theorem enterHost_txd : (enterHost s).txd = s.txd := by
  simp [enterHost]
@[simp] theorem enterHost_rxd : (enterHost s).rxd = s.rxd := by
  simp [enterHost]
@[simp] theorem enterHost_xferBusy : (enterHost s).xferBusy = s.xferBusy := by
  simp [enterHost]
@[simp] theorem enterHost_xferStart : (enterHost s).xferStart = s.xferStart := by
  simp [enterHost]
@[simp] theorem enterHost_trapped : (enterHost s).trapped = s.trapped := by
  simp [enterHost]
@[simp] theorem enterHost_fault : (enterHost s).fault = s.fault := by
  simp [enterHost]
@[simp] theorem enterHost_bus : (enterHost s).bus = s.bus := by
  simp [enterHost]
@[simp] theorem enterHost_slot : (enterHost s).slot = s.slot := by
  simp [enterHost]

@[simp] theorem enterTick_cfg : (enterTick s).cfg = s.cfg := by
  unfold enterTick; split <;> simp
@[simp] theorem enterTick_now : (enterTick s).now = s.now := by
  unfold enterTick; split <;> simp
@[simp] theorem enterTick_step : (enterTick s).step = s.step := by
  unfold enterTick; split <;> simp
@[simp] theorem enterTick_armed : (enterTick s).armed = false := by
  unfold enterTick; split <;> simp
@[simp] theorem enterTick_nextT : (enterTick s).nextT = s.nextT := by
  unfold enterTick; split <;> simp
@[simp] theorem enterTick_cnt : (enterTick s).cnt = s.cnt := by
  unfold enterTick; split <;> simp
@[simp] theorem enterTick_cntPhase : (enterTick s).cntPhase = s.cntPhase := by
  unfold enterTick; split <;> simp
@[simp] theorem enterTick_txd : (enterTick s).txd = s.txd := by
  unfold enterTick; split <;> simp
@[simp] theorem enterTick_xferStart : (enterTick s).xferStart = s.xferStart := by
  unfold enterTick; split <;> simp
@[simp] theorem enterTick_trapped : (enterTick s).trapped = s.trapped := by
  unfold enterTick; split <;> simp
@[simp] theorem enterTick_fault : (enterTick s).fault = s.fault := by
  unfold enterTick; split <;> simp
@[simp] theorem enterTick_host : (enterTick s).host = s.host := by
  unfold enterTick; split <;> simp
@[simp] theorem enterTick_bus : (enterTick s).bus = s.bus := by
  unfold enterTick; split <;> simp
@[simp] theorem enterTick_slot : (enterTick s).slot = s.slot := by
  unfold enterTick; split <;> simp


variable {s}

theorem enterTick_timer (h : s.cfg.engine = .timer) : enterTick s = useLat (disarm s) := by
  unfold enterTick
  split <;> simp_all

theorem enterTick_timed (h : s.cfg.level = .timed) : enterTick s = useLat (disarm s) := by
  unfold enterTick
  split <;> simp_all

theorem enterTick_untimed_shift (h : s.cfg.level = .untimed) (he : s.cfg.engine ≠ .timer) :
    enterTick s = completeUntimed (useLat (disarm s)) := by
  unfold enterTick
  split <;> simp_all
  rename_i h1 h2
  cases hc : s.cfg.engine <;> simp_all

/-- A timer descriptor answers a next state only on a TIMER instance and for a legal word. -/
theorem runTimer_next {perform : State → State} {delay : BitVec 16} {t : Bool} {u : State}
    (h : runTimer perform delay t s = .next u) :
    s.cfg.engine = .timer ∧ delayMatchesT delay t = true ∧
      u = if t then terminal (advanceProg (perform s))
        else reloadTimer delay.toNat (advanceProg (perform s)) := by
  unfold runTimer at h
  split at h
  · cases h
  · cases h
  · split at h
    · rename_i he hd
      exact ⟨he, hd, (Host.Outcome.next.inj h).symm⟩
    · cases h

/-- On a TIMER instance a legal timer descriptor runs (rule R108). -/
theorem runTimer_runs (perform : State → State) {delay : BitVec 16} {t : Bool}
    (he : s.cfg.engine = .timer) (hd : delayMatchesT delay t = true) :
    runTimer perform delay t s = .next (if t then terminal (advanceProg (perform s))
      else reloadTimer delay.toNat (advanceProg (perform s))) := by
  simp [runTimer, he, hd]

/-- The next transfer starts only where there is a next shift descriptor. -/
theorem continueShift_next {u : State} (h : continueShift s = .next u) :
    ∃ c p, fetchDesc s = some c ∧ patOf c = some p ∧ u = startXfer p s.now s := by
  unfold continueShift at h
  split at h
  · cases h
  · rename_i c hc
    split at h
    · cases h
    · rename_i p hp
      exact ⟨c, p, hc, hp, (Host.Outcome.next.inj h).symm⟩

theorem runShift_eq (capture : State → State) (t : Bool) (he : s.cfg.engine ≠ .timer) :
    runShift capture t s = if t then .next (terminal (advanceProg (capture s)))
      else continueShift (advanceProg (capture s)) := by
  unfold runShift
  split <;> simp_all

/-- A shift descriptor answers a next state only on a SHIFT_* instance. -/
theorem runShift_next {capture : State → State} {t : Bool} {u : State}
    (h : runShift capture t s = .next u) :
    s.cfg.engine ≠ .timer ∧
      ((t = true ∧ u = terminal (advanceProg (capture s))) ∨
       (t = false ∧ continueShift (advanceProg (capture s)) = .next u)) := by
  by_cases he : s.cfg.engine = .timer
  · simp [runShift, he] at h
  · rw [runShift_eq capture t he] at h
    cases t
    · exact ⟨he, .inr ⟨rfl, by simpa using h⟩⟩
    · exact ⟨he, .inl ⟨rfl, by simpa using h.symm⟩⟩

/-- A tick traps where there is no descriptor, and runs the descriptor's instruction where there is
one (rule R108). -/
theorem tickStep_next {u : State} (h : tickStep s = .next u) :
    (fetchDesc (enterTick s) = none ∧ u = trap (enterTick s)) ∨
      ∃ c i, fetchDesc (enterTick s) = some c ∧ decode c = .ok i ∧
        exec i (enterTick s) = .next u := by
  unfold tickStep at h
  simp only at h
  split at h
  · rename_i hf
    exact .inl ⟨hf, (Host.Outcome.next.inj h).symm⟩
  · rename_i c hf
    split at h
    · rename_i i hd
      exact .inr ⟨c, i, hf, hd, h⟩
    · cases h

/-- A Host step runs a line of its own, or the instruction that its access decodes to. -/
theorem hostStep_next {op : HostOp} {u : State} (h : hostStep op s = .next u) :
    (lineKind op s = .inHost ∧ u = hostLocal op (enterHost s)) ∨
      ∃ c i, lineKind op s = .code c ∧ decode c = .ok i ∧ exec i (enterHost s) = .next u := by
  unfold hostStep at h
  simp only at h
  split at h
  · rename_i hk
    exact .inl ⟨hk, (Host.Outcome.next.inj h).symm⟩
  · cases h
  · rename_i c hk
    split at h
    · rename_i i hd
      exact .inr ⟨c, i, hk, hd, h⟩
    · cases h

/-- Where the next turn is an agent's, FAULT = NONE, and the turn is the agents' own. -/
theorem nextTurn_agent {turn : Turn} (h : nextTurn s = turn) (hr : ∀ t, turn ≠ .reset t)
    (hq : turn ≠ .quiescent) : s.fault = .none ∧ agentTurn s = turn := by
  unfold nextTurn at h
  simp only at h
  by_cases hf : s.fault = .none
  · refine ⟨hf, ?_⟩
    simp only [hf, ite_true] at h
    split at h
    · exact h
    · exact absurd h.symm (hr _)
    · split at h
      · exact absurd h.symm (hr _)
      · exact h
  · simp only [hf, ite_false] at h
    split at h
    · exact absurd h.symm hq
    · exact absurd h.symm (hr _)
    · rename_i hx; simp [Turn.time] at hx

/-- A tick is due only where one is armed, at NEXT_T and its latency (rule R107). -/
theorem agentTurn_tick {h : Nat} (ht : agentTurn s = .tick h) :
    s.armed = true ∧ h = due s (s.nextT + latency s) := by
  have hk : tickTime s = some h := by
    unfold agentTurn at ht
    split at ht <;> simp_all
    split at ht <;> simp_all
    split at ht <;> simp_all
    split at ht <;> simp_all
  unfold tickTime at hk
  split at hk
  · exact ⟨by assumption, (Option.some.inj hk).symm⟩
  · cases hk

/-- A Host step is due only where the Host has a line and is not blocked (rule R180). -/
theorem agentTurn_host {t : Nat} (ht : agentTurn s = .host t) :
    (nextLine s).isSome = true ∧ hostBlocked s = false ∧ t = due s s.host.nextAt := by
  have hk : hostTime s = some t := by
    unfold agentTurn at ht
    split at ht <;> simp_all
    split at ht <;> simp_all
    split at ht <;> simp_all
    split at ht <;> simp_all
  unfold hostTime at hk
  split at hk
  · cases hk
  · rename_i hn
    split at hk
    · cases hk
    · rename_i hb
      exact ⟨by simp [hn], by simpa using hb, (Option.some.inj hk).symm⟩

/-- Everything a step can do: a block reset, a tick, or a Host step, each on a legal configuration
(rules R58, R117, R224). -/
theorem step_cases {u : State} (h : step s = .next u) :
    legalConfig s.cfg = true ∧
    ((∃ t, nextTurn s = .reset t ∧ u = resetStep t s) ∨
     (∃ t, nextTurn s = .tick t ∧ s.fault = .none ∧ s.armed = true ∧
        t = due s (s.nextT + latency s) ∧ tickStep (advanceTo t (settleTie s)) = .next u) ∨
     (∃ t op, nextTurn s = .host t ∧ s.fault = .none ∧ nextLine s = some op ∧
        hostBlocked s = false ∧ t = due s s.host.nextAt ∧
        hostStep op (advanceTo t (settleTie s)) = .next u)) := by
  unfold step runStep at h
  split at h
  · rename_i hl
    refine ⟨hl, ?_⟩
    cases hn : nextTurn s with
    | reset t => rw [hn] at h; exact .inl ⟨t, rfl, (Host.Outcome.next.inj h).symm⟩
    | tick t =>
      rw [hn] at h
      obtain ⟨hf, ha⟩ := nextTurn_agent hn (by simp) (by simp)
      obtain ⟨harm, ht⟩ := agentTurn_tick ha
      exact .inr (.inl ⟨t, rfl, hf, harm, ht, h⟩)
    | host t =>
      rw [hn] at h
      obtain ⟨hf, ha⟩ := nextTurn_agent hn (by simp) (by simp)
      obtain ⟨_, hb, ht⟩ := agentTurn_host ha
      cases hl : nextLine s with
      | none => simp [turnStep, hl] at h
      | some op =>
        exact .inr (.inr ⟨t, op, rfl, hf, rfl, hb, ht, by simpa [turnStep, hl] using h⟩)
    | quiescent => rw [hn] at h; simp [turnStep] at h
    | idle => rw [hn] at h; simp [turnStep] at h
  · cases h

end Sys2Proof.Machine
end

