-- ==== Sys2Proof/Laws/Encoding.lean ====
section
/-! SUPPORT. The bits of the words the encoder writes (rules R72, R73), one lemma per kind of word,
and the fields a decoder takes from them. -/

namespace Sys2Proof

/-- Bit `i` of two words put together. -/
theorem append_bit {n m : Nat} (r : BitVec n) (a : BitVec m) (i : Nat) :
    (r ++ a).getLsbD i = if i < m then a.getLsbD i else r.getLsbD (i - m) := by
  rw [BitVec.getLsbD_append]

/-- Bit `i` of a TDESC32 word. -/
theorem timerWord_bit (d : BitVec 16) (t : Bool) (a : BitVec 3) (i : Nat) :
    (timerWord d t a).getLsbD i =
   if i < 3 then a.getLsbD i else if i = 3 then t else if i < 16 then false
     else d.getLsbD (i - 16) := by
  show (((d ++ 0#12) ++ BitVec.ofBool t) ++ a : BitVec (16 + 12 + 1 + 3)).getLsbD i = _
  rw [BitVec.getLsbD_append, BitVec.getLsbD_append, BitVec.getLsbD_append]
  by_cases h : i < 3
  · simp [h]
  · by_cases h3 : i = 3
    · subst h3; simp
    · have h4 : ¬ i - 3 < 1 := by omega
      by_cases h5 : i < 16
      · have h6 : i - 3 - 1 < 12 := by omega
        simp [h, h3, h4, h5, h6]
      · have h6 : ¬ i - 3 - 1 < 12 := by omega
        have h7 : i - 3 - 1 - 12 = i - 16 := by omega
        simp [h, h3, h4, h5, h6, h7]

/-- Bit `i` of a SDESC16 word. -/
theorem shiftWord_bit (t : Bool) (b : BitVec 3) (c : BitVec 2) (p : Byte) (i : Nat) :
    (shiftWord t b c p).getLsbD i =
   if i < 8 then p.getLsbD i else if i < 10 then c.getLsbD (i - 8)
     else if i < 13 then b.getLsbD (i - 10) else if i = 15 then t else false := by
  show ((((BitVec.ofBool t ++ 0#2) ++ b) ++ c) ++ p : BitVec (1 + 2 + 3 + 2 + 8)).getLsbD i = _
  rw [BitVec.getLsbD_append, BitVec.getLsbD_append, BitVec.getLsbD_append, BitVec.getLsbD_append]
  by_cases h : i < 8
  · simp [h]
  by_cases h1 : i < 10
  · have : i - 8 < 2 := by omega
    simp [h, h1, this]
  have e1 : ¬ i - 8 < 2 := by omega
  by_cases h2 : i < 13
  · have : i - 8 - 2 < 3 := by omega
    have e : i - 8 - 2 = i - 10 := by omega
    have : i - 10 < 3 := by omega
    simp [h, h1, h2, this, e, e1]
  have e2 : ¬ i - 8 - 2 < 3 := by omega
  by_cases h3 : i < 15
  · have : i - 8 - 2 - 3 < 2 := by omega
    have : ¬ i = 15 := by omega
    simp [*]
  · have h4 : ¬ i - 8 - 2 - 3 < 2 := by omega
    by_cases h5 : i = 15
    · subst h5; simp
    · have : i - 8 - 2 - 3 - 2 ≠ 0 := by omega
      simp [*]

/-- Bit `i` of a reserved timer word. -/
theorem reservedTimer_bit (r : BitVec 29) (a : BitVec 3) (i : Nat) :
    (r ++ a : BitVec 32).getLsbD i =
      if i < 3 then a.getLsbD i else r.getLsbD (i - 3) := append_bit r a i

/-- Bit `i` of a reserved shift word. -/
theorem reservedShift_bit (r : BitVec 6) (p : Byte) (i : Nat) :
    (r ++ 0b11#2 ++ p : BitVec 16).getLsbD i =
      if i < 8 then p.getLsbD i else if i < 10 then true else r.getLsbD (i - 10) := by
  show ((r ++ 0b11#2) ++ p : BitVec (6 + 2 + 8)).getLsbD i = _
  rw [append_bit, append_bit]
  by_cases h : i < 8
  · simp [h]
  by_cases h1 : i < 10
  · have : i - 8 < 2 := by omega
    simp only [h, this, h1, ite_true, ite_false]
    have : i = 8 ∨ i = 9 := by omega
    rcases this with rfl | rfl <;> rfl
  · have : ¬ i - 8 < 2 := by omega
    have e : i - 8 - 2 = i - 10 := by omega
    simp only [h, this, h1, ite_false, e]

theorem timerWord_and (d : BitVec 16) (t : Bool) (a : BitVec 3) :
    timerWord d t a &&& 0x0000FFF7#32 = a.setWidth 32 := by
  apply BitVec.eq_of_getLsbD_eq
  intro i hi
  rw [BitVec.getLsbD_and, timerWord_bit, BitVec.getLsbD_setWidth]
  interval_cases i <;> simp

theorem timerWord_delay (d : BitVec 16) (t : Bool) (a : BitVec 3) :
    (timerWord d t a).extractLsb' 16 16 = d := by
  apply BitVec.eq_of_getLsbD_eq
  intro i hi
  rw [BitVec.getLsbD_extractLsb', timerWord_bit]
  have h1 : ¬ 16 + i < 3 := by omega
  have h2 : ¬ 16 + i = 3 := by omega
  have h3 : ¬ 16 + i < 16 := by omega
  simp [h1, h2, h3, hi]

theorem timerWord_t (d : BitVec 16) (t : Bool) (a : BitVec 3) :
    (timerWord d t a).getLsbD 3 = t := by
  rw [timerWord_bit]; rfl

theorem shiftWord_pat (t : Bool) (b : BitVec 3) (c : BitVec 2) (p : Byte) :
    (shiftWord t b c p).extractLsb' 0 8 = p := by
  apply BitVec.eq_of_getLsbD_eq
  intro i hi
  rw [BitVec.getLsbD_extractLsb', shiftWord_bit]
  simp [hi]

theorem shiftWord_t (t : Bool) (b : BitVec 3) (c : BitVec 2) (p : Byte) :
    (shiftWord t b c p).getLsbD 15 = t := by
  rw [shiftWord_bit]; rfl

theorem shiftWord_bitsel (t : Bool) (b : BitVec 3) (c : BitVec 2) (p : Byte) :
    (shiftWord t b c p).extractLsb' 10 3 = b := by
  apply BitVec.eq_of_getLsbD_eq
  intro i hi
  rw [BitVec.getLsbD_extractLsb', shiftWord_bit]
  interval_cases i <;> simp

theorem shiftWord_and (t : Bool) (b : BitVec 3) (c : BitVec 2) (p : Byte) :
    shiftWord t b c p &&& 0x7F00#16 = (b ++ c ++ 0#8).setWidth 16 := by
  apply BitVec.eq_of_getLsbD_eq
  intro i hi
  rw [BitVec.getLsbD_and, shiftWord_bit, BitVec.getLsbD_setWidth, append_bit, append_bit]
  interval_cases i <;> simp

theorem shiftWord_and_cap (t : Bool) (b : BitVec 3) (c : BitVec 2) (p : Byte) :
    shiftWord t b c p &&& 0x6300#16 = (c ++ 0#8).setWidth 16 := by
  apply BitVec.eq_of_getLsbD_eq
  intro i hi
  rw [BitVec.getLsbD_and, shiftWord_bit, BitVec.getLsbD_setWidth, append_bit]
  interval_cases i <;> simp

end Sys2Proof
end

