-- ==== Sys2Proof/Laws/Exec.lean ====
section
/-! SUPPORT. What no instruction changes: the configuration, the clock and TRAPPED. -/

namespace Sys2Proof.Machine

/-- A command, accepted or turned away, changes none of the three. -/
theorem issue_keeps (w : Byte) (s : State) :
    (issue w s).trapped = s.trapped ∧ (issue w s).cfg = s.cfg ∧ (issue w s).now = s.now := by
  unfold issue
  split <;> simp

/-- A timer descriptor changes none of them where its own action does not. -/
theorem runTimer_keeps {perf : State → State} {d : BitVec 16} {t : Bool} {s u : State}
    (h : runTimer perf d t s = .next u)
    (hp : (perf s).trapped = s.trapped ∧ (perf s).cfg = s.cfg ∧ (perf s).now = s.now) :
    u.trapped = s.trapped ∧ u.cfg = s.cfg ∧ u.now = s.now := by
  obtain ⟨h1, h2, h3⟩ := hp
  obtain ⟨_, _, rfl⟩ := runTimer_next h
  split <;> simp [h1, h2, h3]

/-- A shift descriptor changes none of them where its capture rule does not. -/
theorem runShift_keeps {capture : State → State} {t : Bool} {s u : State}
    (h : runShift capture t s = .next u)
    (hp : (capture s).trapped = s.trapped ∧ (capture s).cfg = s.cfg ∧ (capture s).now = s.now) :
    u.trapped = s.trapped ∧ u.cfg = s.cfg ∧ u.now = s.now := by
  obtain ⟨h1, h2, h3⟩ := hp
  obtain ⟨_, ⟨_, rfl⟩ | ⟨_, h⟩⟩ := runShift_next h
  · simp [h1, h2, h3]
  · obtain ⟨c, p, _, _, rfl⟩ := continueShift_next h
    simp [h1, h2, h3]

/-- No instruction changes TRAPPED (rule R35), the configuration (rule R36) or the clock. -/
theorem exec_keeps (i : Instr) {s u : State} (h : exec i s = .next u) :
    u.trapped = s.trapped ∧ u.cfg = s.cfg ∧ u.now = s.now := by
  cases i with
  | issueReset => cases h; exact issue_keeps _ _
  | issueRead => cases h; exact issue_keeps _ _
  | issueWrite p => cases h; exact issue_keeps _ _
  | issueRsvd => cases h; exact issue_keeps _ _
  | poll rd => cases h; simp
  | tHold d t => exact runTimer_keeps (perf := fun s => s) h (by simp)
  | tDriveLow d t => exact runTimer_keeps (perf := driveLine .low) h (by simp)
  | tRelease d t => exact runTimer_keeps (perf := driveLine .rel) h (by simp)
  | tSampleSet d t => exact runTimer_keeps (perf := performSampleSet) h (by simp [performSampleSet])
  | tSampleOr d t => exact runTimer_keeps (perf := performSampleOr) h (by simp [performSampleOr])
  | tRsvd5 r => cases h
  | tRsvd6 r b => cases h
  | sCapNone p t => exact runShift_keeps (capture := fun s => s) h (by simp)
  | sCapOrLow p t => exact runShift_keeps (capture := captureOrLow) h (by simp [captureOrLow])
  | sCapBit p b t => exact runShift_keeps (capture := captureBit b) h (by simp [captureBit])
  | sRsvd r p => cases h
  | owWait rd => cases h; split <;> simp [pollPass]
  | owReset rd =>
    cases h
    simpa using issue_keeps 0x00#8 (pushLines [.pseudo .wait rd] s)
  | owWrbyte rs =>
    cases h
    rw [(issue_keeps _ _).1, (issue_keeps _ _).2.1, (issue_keeps _ _).2.2]
    simp
  | owRdbyte rd =>
    cases h
    rw [(issue_keeps _ _).1, (issue_keeps _ _).2.1, (issue_keeps _ _).2.2]
    simp

end Sys2Proof.Machine
end

