-- ==== Sys2Proof/Laws/Legality.lean ====
section
/-! SUPPORT. What a legal configuration gives (rule R117): each table that a key selects, and each
descriptor that a tick fetches from it. -/

namespace Sys2Proof.Machine

/-- Where every entry of a list maps to something, each entry maps to the result's entry. -/
theorem mapM_some {α β} {f : α → Option β} : ∀ {l : List α} {r : List β}, l.mapM f = some r →
    r.length = l.length ∧ ∀ (n : Nat) (c : α), l[n]? = some c → ∃ i, r[n]? = some i ∧ f c = some i
  | [], r, h => by simp at h; subst h; simp
  | a :: l, r, h => by
    simp only [List.mapM_cons] at h
    cases hf : f a with
    | none => simp [hf] at h
    | some b =>
      cases hm : l.mapM f with
      | none => simp [hf, hm] at h
      | some bs =>
        simp [hf, hm] at h
        subst h
        obtain ⟨h1, h2⟩ := mapM_some hm
        refine ⟨by simp [h1], ?_⟩
        intro n c hc
        cases n with
        | zero => simp at hc; subst hc; exact ⟨b, by simp, hf⟩
        | succ n => simpa using h2 n c (by simpa using hc)

/-- Condition 3 of rule R117, by index. -/
theorem onlyLastTerminal_at : ∀ {is : List Instr}, onlyLastTerminal is = true → ∀ (n : Nat) (i : Instr), is[n]? = some i →
    isTerminal i = decide (n + 1 = is.length)
  | [], h, n, i, hi => by simp at hi
  | [a], h, n, i, hi => by
    cases n with
    | zero => simp at hi; subst hi; simpa [onlyLastTerminal] using h
    | succ n => simp at hi
  | a :: b :: rest, h, n, i, hi => by
    simp only [onlyLastTerminal, Bool.and_eq_true, Bool.not_eq_true'] at h
    cases n with
    | zero => simp at hi; subst hi; simp [h.1]
    | succ n =>
      have := onlyLastTerminal_at h.2 n i (by simpa using hi)
      rw [this]; simp

/-- What the conditions of rule R117 say of the table that `key` selects, with its instructions. -/
structure LegalTable (cfg : Config) (key : Key) (table : List Code) (is : List Instr) : Prop where
  mem : key = keyReset ∨ key = keyRead ∨ key = keyWrite0 ∨ key = keyWrite1
  mapm : table.mapM (legalDesc cfg.engine) = some is
  pos : 1 ≤ is.length
  le : is.length ≤ 15
  last : onlyLastTerminal is = true
  rel : endsReleased cfg.engine is = true
  wr : key = keyWrite0 ∨ key = keyWrite1 → is.any writesResult = false

/-- A table that a key selects is an entry of TABLES. -/
theorem lookupTable_mem {cfg : Config} {key : Key} {table} (h : lookupTable cfg key = some table) :
    (key, table) ∈ cfg.tables := by
  unfold lookupTable at h
  generalize cfg.tables = l at h
  induction l with
  | nil => simp at h
  | cons a l ih =>
    obtain ⟨k, t⟩ := a
    simp only [List.lookup] at h
    split at h
    · rename_i hk; simp at hk h; subst hk h; simp
    · exact List.mem_cons_of_mem _ (ih h)

/-- In a legal configuration every table that a key selects meets the conditions. -/
theorem legalConfig_table {cfg : Config} {key : Key} {table : List Code} (hl : legalConfig cfg = true)
    (ht : lookupTable cfg key = some table) : ∃ is, LegalTable cfg key table is := by
  unfold legalConfig at hl
  split at hl
  · rename_i r0 r1 r2 r3 h0 h1 h2 h3
    simp only [Bool.and_eq_true] at hl
    obtain ⟨⟨⟨⟨⟨⟨⟨_, hmem⟩, _⟩, _⟩, _⟩, _⟩, hw0⟩, hw1⟩ := hl
    have hm := List.all_eq_true.mp hmem _ (lookupTable_mem ht)
    simp at hm
    have key_case : ∀ k is, key = k → legalTableAt cfg k = some is →
        ((k = keyWrite0 ∨ k = keyWrite1) → is.any writesResult = false) → ∃ is, LegalTable cfg key table is := by
      intro k is hk hla hwr
      subst hk
      unfold legalTableAt at hla
      rw [ht] at hla
      simp only [legalTable] at hla
      split at hla
      · cases hla
      · rename_i is' hm'
        split at hla
        · rename_i hc
          simp at hla
          subst hla
          obtain ⟨c1, c2, c3, c4⟩ := hc
          exact ⟨_, hm, hm', c1, c2, c3, c4, hwr⟩
        · cases hla
    rcases hm with hk | hk | hk | hk
    · exact key_case _ _ hk h0 (by intro h; rcases h with h | h <;> exact absurd h (by decide))
    · exact key_case _ _ hk h1 (by intro h; rcases h with h | h <;> exact absurd h (by decide))
    · exact key_case _ _ hk h2 (by intro _; simpa using hw0)
    · exact key_case _ _ hk h3 (by intro _; simpa using hw1)
  · cases hl

/-- A legal descriptor decodes, to a well-formed instruction of the engine's own format. -/
theorem legalDesc_spec {e : Engine} {c : Code} {i : Instr} (h : legalDesc e c = some i) :
    decode c = .ok i ∧ i.wellFormed = true ∧
      ((e = .timer ∧ ∃ w, c = .tdesc w ∧ decodeTimer w = .ok i) ∨
       (e ≠ .timer ∧ ∃ w, c = .sdesc w ∧ decodeShift w = .ok i)) := by
  cases c with
  | tdesc w =>
    simp only [legalDesc] at h
    split at h
    · rename_i hd
      split at h
      · simp at h; subst h; exact ⟨hd, by assumption, .inl ⟨rfl, w, rfl, hd⟩⟩
      · cases h
    · cases h
  | sdesc w =>
    simp only [legalDesc] at h
    split at h
    · cases h
    · rename_i he hd
      split at h
      · simp at h; subst h; exact ⟨hd, by assumption, .inr ⟨he, w, rfl, hd⟩⟩
      · cases h
    · cases h
  | cmd w => simp [legalDesc] at h
  | stat w => simp [legalDesc] at h
  | pseudo w r => simp [legalDesc] at h

/-- The well-formed timer descriptors. -/
theorem decodeTimer_forms {w : BitVec 32} {i : Instr} (h : decodeTimer w = .ok i) (hw : i.wellFormed = true) :
    ∃ d t, delayMatchesT d t = true ∧ (i = .tHold d t ∨ i = .tDriveLow d t ∨ i = .tRelease d t ∨
      i = .tSampleSet d t ∨ i = .tSampleOr d t) := by
  unfold decodeTimer at h
  simp only at h
  split at h
  · cases h; exact ⟨_, _, hw, .inl rfl⟩
  split at h
  · cases h; exact ⟨_, _, hw, .inr (.inl rfl)⟩
  split at h
  · cases h; exact ⟨_, _, hw, .inr (.inr (.inl rfl))⟩
  split at h
  · cases h; exact ⟨_, _, hw, .inr (.inr (.inr (.inl rfl)))⟩
  split at h
  · cases h; exact ⟨_, _, hw, .inr (.inr (.inr (.inr rfl)))⟩
  split at h
  · cases h; simp [Instr.wellFormed] at hw
  split at h
  · cases h; simp [Instr.wellFormed] at hw
  · cases h

/-- The well-formed shift descriptors, each with the pattern of its word. -/
theorem decodeShift_forms {w : BitVec 16} {i : Instr} (h : decodeShift w = .ok i) (hw : i.wellFormed = true) :
    ∃ p t, patOf (.sdesc w) = some p ∧ (i = .sCapNone p t ∨ i = .sCapOrLow p t ∨ ∃ b, i = .sCapBit p b t) := by
  unfold decodeShift at h
  simp only at h
  split at h
  · cases h; exact ⟨_, _, rfl, .inl rfl⟩
  split at h
  · cases h; exact ⟨_, _, rfl, .inr (.inl rfl)⟩
  split at h
  · cases h; exact ⟨_, _, rfl, .inr (.inr ⟨_, rfl⟩)⟩
  split at h
  · cases h; simp [Instr.wellFormed] at hw
  · cases h

/-- The descriptor that a tick fetches in a legal configuration. -/
theorem fetchDesc_legal {s : State} {c : Code} (hl : legalConfig s.cfg = true) (hf : fetchDesc s = some c) :
    ∃ table is i, lookupTable s.cfg s.key = some table ∧ LegalTable s.cfg s.key table is ∧
      is[s.prog.toNat]? = some i ∧ table[s.prog.toNat]? = some c ∧ legalDesc s.cfg.engine c = some i ∧
      is.length = table.length := by
  unfold fetchDesc lookupDesc at hf
  split at hf
  · cases hf
  · rename_i table ht
    obtain ⟨is, hok⟩ := legalConfig_table hl ht
    obtain ⟨h1, h2⟩ := mapM_some hok.mapm
    obtain ⟨i, hi, hd⟩ := h2 _ _ hf
    exact ⟨table, is, i, ht, hok, hi, hf, hd, h1⟩

/-- A legal table decodes to its instructions, index by index. -/
theorem decodedUpTo_eq {e : Engine} : ∀ {table : List Code} {is : List Instr}, table.mapM (legalDesc e) = some is →
    ∀ n, decodedUpTo table n = is.take n
  | [], is, h, n => by simp at h; subst h; simp [decodedUpTo]
  | c :: l, r, h, n => by
    simp only [List.mapM_cons] at h
    cases hf : legalDesc e c with
    | none => simp [hf] at h
    | some b =>
      cases hm : l.mapM (legalDesc e) with
      | none => simp [hf, hm] at h
      | some bs =>
        simp [hf, hm] at h
        subst h
        cases n with
        | zero => simp [decodedUpTo]
        | succ n =>
          have := decodedUpTo_eq hm n
          simp only [decodedUpTo, List.take_succ_cons, List.filterMap_cons, (legalDesc_spec hf).1] at this ⊢
          rw [this]

theorem releasedAfter_append : ∀ (r : Bool) (l1 l2 : List Instr), releasedAfter r (l1 ++ l2) = releasedAfter (releasedAfter r l1) l2
  | r, [], l2 => rfl
  | r, i :: l1, l2 => by
    cases i <;> simp only [List.cons_append, releasedAfter] <;> exact releasedAfter_append _ _ _

/-- The keys WRITE0 and WRITE1 are those of OP = WRITE (rule R74). -/
theorem keyOf_write_iff {w : Byte} : keyOf w = keyWrite0 ∨ keyOf w = keyWrite1 ↔ stepOp w = opWrite := by
  revert w; decide

/-- PROG does not wrap below N_MAX (rule R28). -/
theorem stepProg_succ {w : Byte} (h : (stepProg w).toNat < 15) : (stepProg w + 1#4).toNat = (stepProg w).toNat + 1 := by
  revert w; decide

end Sys2Proof.Machine
end

