-- ==== Sys2Proof/Laws/PerInstr.lean ====
section
/-! SUPPORT. The family RowMatch: the word the encoder writes for an instruction fits that
instruction's own row of the opcode map (rule R81). A pseudo-instruction has no word (rule R83). -/

namespace Sys2Proof.Laws.RowMatch

/-- The encoded word has a row of its format and of the instruction's mnemonic, which it fits. -/
def Statement (i : Instr) : Prop :=
  match Code.formatAndBits (encode i) with
  | none => i.mnemonic ∈ ["ow.wait", "ow.reset", "ow.wrbyte", "ow.rdbyte"]
  | some (f, b) => ∃ r ∈ opcodeMap, r.format = f ∧ r.mnemonic = i.mnemonic ∧ r.fits b = true

/-- A timer descriptor's word fits a row that masks the ACT and the reserved bits. -/
theorem timer_fits (m : String) (d : BitVec 16) (t : Bool) (a : BitVec 3) :
    Row.fits ⟨m, .tdesc32, a.setWidth 32, 0x0000FFF7#32⟩ (timerWord d t a) = true := by
  simp only [Row.fits, timerWord_and, beq_self_eq_true]

/-- A shift descriptor's word fits a row that masks CAP and the reserved bits. -/
theorem shift_fits (m : String) (t : Bool) (b : BitVec 3) (c : BitVec 2) (p : Byte)
    (mask pattern : BitVec 16)
    (h : shiftWord t b c p &&& mask = pattern) :
    Row.fits ⟨m, .sdesc16, pattern.setWidth 32, mask.setWidth 32⟩
      ((shiftWord t b c p).setWidth 32) = true := by
  simp only [Row.fits, ← h, beq_iff_eq]
  apply BitVec.eq_of_getLsbD_eq
  intro i hi
  simp only [BitVec.getLsbD_and, BitVec.getLsbD_setWidth, hi, decide_true, Bool.true_and]

theorem issueReset : Statement .issueReset :=
  ⟨⟨"ISSUE_RESET", .cmd8, 0x00#32, 0x60#32⟩, by decide, rfl, rfl, by decide⟩

theorem issueRead : Statement .issueRead :=
  ⟨⟨"ISSUE_READ", .cmd8, 0x20#32, 0x60#32⟩, by decide, rfl, rfl, by decide⟩

theorem issueWrite (p : Bool) : Statement (.issueWrite p) :=
  ⟨⟨"ISSUE_WRITE", .cmd8, 0x40#32, 0x60#32⟩, by decide, rfl, rfl, by cases p <;> decide⟩

theorem issueRsvd : Statement .issueRsvd :=
  ⟨⟨"ISSUE_RSVD", .cmd8, 0x60#32, 0x60#32⟩, by decide, rfl, rfl, by decide⟩

theorem poll (rd : Reg) : Statement (.poll rd) :=
  ⟨⟨"POLL", .stat8, 0x00#32, 0x00#32⟩, by decide, rfl, rfl, by decide⟩

theorem tHold (d : BitVec 16) (t : Bool) : Statement (.tHold d t) :=
  ⟨⟨"T_HOLD", .tdesc32, 0x00000000#32, 0x0000FFF7#32⟩, by decide, rfl, rfl, timer_fits _ d t 0#3⟩

theorem tDriveLow (d : BitVec 16) (t : Bool) : Statement (.tDriveLow d t) :=
  ⟨⟨"T_DRIVE_LOW", .tdesc32, 0x00000001#32, 0x0000FFF7#32⟩, by decide, rfl, rfl,
    timer_fits _ d t 1#3⟩

theorem tRelease (d : BitVec 16) (t : Bool) : Statement (.tRelease d t) :=
  ⟨⟨"T_RELEASE", .tdesc32, 0x00000002#32, 0x0000FFF7#32⟩, by decide, rfl, rfl, timer_fits _ d t 2#3⟩

theorem tSampleSet (d : BitVec 16) (t : Bool) : Statement (.tSampleSet d t) :=
  ⟨⟨"T_SAMPLE_SET", .tdesc32, 0x00000003#32, 0x0000FFF7#32⟩, by decide, rfl, rfl,
    timer_fits _ d t 3#3⟩

theorem tSampleOr (d : BitVec 16) (t : Bool) : Statement (.tSampleOr d t) :=
  ⟨⟨"T_SAMPLE_OR", .tdesc32, 0x00000004#32, 0x0000FFF7#32⟩, by decide, rfl, rfl,
    timer_fits _ d t 4#3⟩

theorem tRsvd5 (rest : BitVec 29) : Statement (.tRsvd5 rest) := by
  refine ⟨⟨"T_RSVD5", .tdesc32, 0x00000005#32, 0x00000007#32⟩, by decide, rfl, rfl, ?_⟩
  simp only [Row.fits, beq_iff_eq]
  apply BitVec.eq_of_getLsbD_eq
  intro i hi
  rw [BitVec.getLsbD_and, reservedTimer_bit]
  interval_cases i <;> simp

theorem tRsvd6 (rest : BitVec 29) (b0 : Bool) : Statement (.tRsvd6 rest b0) := by
  refine ⟨⟨"T_RSVD6", .tdesc32, 0x00000006#32, 0x00000006#32⟩, by decide, rfl, rfl, ?_⟩
  simp only [Row.fits, beq_iff_eq]
  apply BitVec.eq_of_getLsbD_eq
  intro i hi
  rw [BitVec.getLsbD_and, reservedTimer_bit]
  cases b0 <;> interval_cases i <;> simp

theorem sCapNone (p : Byte) (t : Bool) : Statement (.sCapNone p t) :=
  ⟨⟨"S_CAP_NONE", .sdesc16, 0x0000#32, 0x7F00#32⟩, by decide, rfl, rfl,
    shift_fits _ t 0#3 0#2 p 0x7F00#16 0x0000#16 (shiftWord_and t 0#3 0#2 p)⟩

theorem sCapOrLow (p : Byte) (t : Bool) : Statement (.sCapOrLow p t) :=
  ⟨⟨"S_CAP_OR_LOW", .sdesc16, 0x0100#32, 0x7F00#32⟩, by decide, rfl, rfl,
    shift_fits _ t 0#3 1#2 p 0x7F00#16 0x0100#16 (shiftWord_and t 0#3 1#2 p)⟩

theorem sCapBit (p : Byte) (b : BitVec 3) (t : Bool) : Statement (.sCapBit p b t) :=
  ⟨⟨"S_CAP_BIT", .sdesc16, 0x0200#32, 0x6300#32⟩, by decide, rfl, rfl,
    shift_fits _ t b 2#2 p 0x6300#16 0x0200#16 (shiftWord_and_cap t b 2#2 p)⟩

theorem sRsvd (rest : BitVec 6) (p : Byte) : Statement (.sRsvd rest p) := by
  refine ⟨⟨"S_RSVD", .sdesc16, 0x0300#32, 0x0300#32⟩, by decide, rfl, rfl, ?_⟩
  simp only [Row.fits, beq_iff_eq]
  apply BitVec.eq_of_getLsbD_eq
  intro i hi
  rw [BitVec.getLsbD_and, BitVec.getLsbD_setWidth, reservedShift_bit]
  interval_cases i <;> simp

theorem owWait (rd : Reg) : Statement (.owWait rd) := by
  show "ow.wait" ∈ _
  decide

theorem owReset (rd : Reg) : Statement (.owReset rd) := by
  show "ow.reset" ∈ _
  decide

theorem owWrbyte (rs : Reg) : Statement (.owWrbyte rs) := by
  show "ow.wrbyte" ∈ _
  decide

theorem owRdbyte (rd : Reg) : Statement (.owRdbyte rd) := by
  show "ow.rdbyte" ∈ _
  decide

end Sys2Proof.Laws.RowMatch
end

