-- ==== Sys2Proof/Laws/Transfer.lean ====
section
/-! SUPPORT. What a transfer does while the clock advances (rules R172 to R174), and the three ways the
clock advances. -/

namespace Sys2Proof.Machine

/-- The cells of a transfer from cell `k` on, over `(lo, hi]`: whether it is still running, and the
drive of the last cell that has started. -/
theorem applyCells_run (lo hi st : Nat) : ∀ (n k : Nat) (s : State), k + n = 8 → s.xferBusy = true →
    (applyCells lo hi (cellEvents st k n) s).xferBusy = !(decide (lo < st + tXfer ∧ st + tXfer ≤ hi)) ∧
    (applyCells lo hi (cellEvents st k n) s).drive =
      (if n = 0 ∨ hi < st + k * 9000 then s.drive
       else if lo < st + (min 7 ((hi - st) / 9000)) * 9000 then cellDrive s.txd (min 7 ((hi - st) / 9000)) else s.drive)
  | 0, k, s, hk, hb => by
    simp only [cellEvents, applyCells]
    by_cases h : lo < st + tXfer ∧ st + tXfer ≤ hi <;> simp [applyCell, hb, h]
  | n + 1, k, s, hk, hb => by
    simp only [cellEvents, applyCells]
    set s1 : State := if lo < cellStart st k ∧ cellStart st k ≤ hi then applyCell (cellStart st k) (.drive k) s else s with hs1
    set s2 : State := if lo < cellSample st k ∧ cellSample st k ≤ hi then applyCell (cellSample st k) (.sample k) s1 else s1 with hs2
    have b1 : s1.xferBusy = true := by rw [hs1]; split <;> simp [applyCell, hb]
    have b2 : s2.xferBusy = true := by rw [hs2]; split <;> simp [applyCell, b1]
    have t1 : s1.txd = s.txd := by rw [hs1]; split <;> simp
    have t2 : s2.txd = s.txd := by rw [hs2]; split <;> simp [t1]
    have d2 : s2.drive = s1.drive := by rw [hs2]; split <;> simp [applyCell]
    obtain ⟨i1, i2⟩ := applyCells_run lo hi st n (k+1) s2 (by omega) b2
    refine ⟨i1, ?_⟩
    rw [i2, d2, t2, hs1]
    have cs : cellStart st k = st + k * 9000 := rfl
    rw [cs]
    have hdiv : hi < st + (k+1) * 9000 → st + k * 9000 ≤ hi → (hi - st) / 9000 = k := by
      intro h1 h2
      have : (hi - st) / 9000 < k + 1 := Nat.div_lt_of_lt_mul (by omega)
      have : k ≤ (hi - st) / 9000 := by rw [Nat.le_div_iff_mul_le (by norm_num)]; omega
      omega
    have hge : st + (k+1) * 9000 ≤ hi → k + 1 ≤ (hi - st) / 9000 := by
      intro h; rw [Nat.le_div_iff_mul_le (by norm_num)]; omega
    by_cases c1 : hi < st + k * 9000
    · have : ¬ (lo < st + k * 9000 ∧ st + k * 9000 ≤ hi) := by omega
      have h3 : hi < st + (k+1) * 9000 := Nat.lt_of_lt_of_le c1 (Nat.add_le_add_left (Nat.mul_le_mul_right _ (Nat.le_succ k)) _)
      have g1 : n = 0 ∨ hi < st + (k+1) * 9000 := .inr h3
      have g2 : n + 1 = 0 ∨ hi < st + k * 9000 := .inr c1
      rw [if_neg this, if_pos g1, if_pos g2]
    · by_cases c2 : hi < st + (k+1) * 9000
      · have hq := hdiv c2 (by omega)
        have hm : min 7 k = k := by omega
        simp only [c2, c1, hq, hm, or_true, or_false, ite_true, Nat.add_eq_zero_iff, ite_false, and_false, one_ne_zero]
        by_cases c3 : lo < st + k * 9000
        · have : st + k * 9000 ≤ hi := by omega
          simp [c3, this, applyCell]
        · simp [c3]
      · have hq := hge (by omega)
        simp only [c2, c1, or_false, Nat.add_eq_zero_iff, and_false, one_ne_zero, ite_false]
        by_cases hn : n = 0
        · have hk7 : k = 7 := by omega
          subst hn hk7
          have hm : min 7 ((hi - st) / 9000) = 7 := by omega
          simp only [hm, ite_true]
          by_cases c3 : lo < st + 7 * 9000
          · have : st + 7 * 9000 ≤ hi := by omega
            simp [c3, this, applyCell]
          · simp [c3]
        · simp only [hn, ite_false]
          by_cases c4 : lo < st + min 7 ((hi - st) / 9000) * 9000
          · simp [c4]
          · simp only [c4, ite_false]
            have : ¬ lo < st + k * 9000 := by
              have : k ≤ min 7 ((hi - st) / 9000) := by omega
              have := Nat.mul_le_mul_right 9000 this
              exact fun h => c4 (Nat.lt_of_lt_of_le h (Nat.add_le_add_left this _))
            have g1 : ¬ (lo < st + k * 9000 ∧ st + k * 9000 ≤ hi) := fun h => this h.1
            rw [if_neg g1]

/-- A transfer that drives the line as rule R173 says goes on doing so. -/
theorem runXfer_spec {s : State} {t : Nat} (hb : s.xferBusy = true) (hr : xferRuns s) (ht : s.now ≤ t) :
    ((runXfer t s).xferBusy = decide (t < s.xferStart + tXfer)) ∧
    (runXfer t s).drive = cellDrive s.txd (min 7 ((t - s.xferStart) / 9000)) := by
  obtain ⟨h1, h2, h3, h4⟩ := hr
  obtain ⟨i1, i2⟩ := applyCells_run s.now t s.xferStart 8 0 s rfl hb
  unfold runXfer
  simp only [hb, ite_true]
  refine ⟨by rw [i1]; simp only [h2, true_and]; rw [← decide_not]; simp, ?_⟩
  rw [i2]
  have : ¬ (8 = 0 ∨ t < s.xferStart + 0 * 9000) := by omega
  rw [if_neg this]
  split
  · rfl
  · rename_i h5
    rw [h4]
    have e : tBit = 9000 := rfl
    have e2 : tXfer = 72000 := rfl
    rw [e]
    rw [e2] at h2
    congr 1
    have a1 : (s.now - s.xferStart) / 9000 ≤ 7 := by
      have := Nat.div_lt_of_lt_mul (m := s.now - s.xferStart) (n := 9000) (k := 8) (by omega); omega
    have a2 : min 7 ((t - s.xferStart) / 9000) ≤ (s.now - s.xferStart) / 9000 := by
      rw [Nat.le_div_iff_mul_le (by norm_num)]; omega
    have a3 : (s.now - s.xferStart) / 9000 ≤ (t - s.xferStart) / 9000 := Nat.div_le_div_right (by omega)
    omega

theorem advanceTo_untimed {t : Nat} {s : State} (h : s.cfg.level = .untimed) : advanceTo t s = s := by
  simp [advanceTo, h]

theorem advanceTo_timer {t : Nat} {s : State} (h : s.cfg.level = .timed) (he : s.cfg.engine = .timer) :
   advanceTo t s = (runCounter t s).setNow t := by
  simp [advanceTo, h, he]

theorem advanceTo_shift {t : Nat} {s : State} (h : s.cfg.level = .timed) (he : s.cfg.engine ≠ .timer) :
   advanceTo t s = (runXfer t s).setNow t := by
  unfold advanceTo; simp only [h]; cases hc : s.cfg.engine <;> simp_all

/-- No step is due before the clock (rule R58). -/
@[simp] theorem due_le (s : State) (t : Nat) : s.now ≤ due s t := by
  unfold due; split <;> simp

end Sys2Proof.Machine
end

