-- ==== Sys2Proof/Tests/Slice0.lean ====
section
/-! SUPPORT. The model's own tests. Every expected value comes from the spec: its encodings, its traces
(rules R148 to R151, R182 to R184) and its vectors (spec/95_test_vectors.md, V1 to V15). After them, a
witness of the hypotheses of each statement that has any. -/

namespace Sys2Proof.Tests

open Sys2Proof Sys2Proof.Machine

/-! ### Small states -/

/-- An instance with the default tables and no device on the line. -/
def bench (e : Engine) : State :=
  (State.resetWith (defaultConfig e)).setBus { pulls := [], responders := [], free := false }

/-- A device that pulls over one interval, in nanoseconds. -/
def withPull (lo hi : Nat) (s : State) : State :=
  s.setBus { pulls := [(lo, hi)], responders := [], free := false }

/-- The Host's next line. -/
def withLine (op : HostOp) (s : State) : State := s.setHost { s.host with micro := [op] }

/-- A sequence in flight: STEP holds `w` and a tick is armed for `t`. -/
def inFlight (w : Byte) (t : Nat) (s : State) : State := ((s.setStep w).setArmed true).setNextT t

/-- A field of the next state. -/
def got {α : Type} (f : State → α) : Host.Outcome State Fault Refusal → Option α
  | .next u => some (f u)
  | .fault _ => none
  | .refused _ => none

/-- The other two outcomes. -/
def stopped : Host.Outcome State Fault Refusal → Option (Fault ⊕ Refusal)
  | .next _ => none
  | .fault f => some (.inl f)
  | .refused r => some (.inr r)

/-! ### Well-formedness: one ill-formed term for each check (rules R76, R79; V4) -/

theorem test_wf_hold_t0_delay0 : (Instr.tHold 0#16 false).wellFormed = false := by decide
theorem test_wf_hold_t1_delay1 : (Instr.tHold 1#16 true).wellFormed = false := by decide
theorem test_wf_driveLow_t0_delay0 : (Instr.tDriveLow 0#16 false).wellFormed = false := by decide
theorem test_wf_driveLow_t1_delay1 : (Instr.tDriveLow 1#16 true).wellFormed = false := by decide
theorem test_wf_release_t0_delay0 : (Instr.tRelease 0#16 false).wellFormed = false := by decide
theorem test_wf_sampleSet_t0_delay0 : (Instr.tSampleSet 0#16 false).wellFormed = false := by decide
theorem test_wf_sampleOr_t1_delay1 : (Instr.tSampleOr 1#16 true).wellFormed = false := by decide
theorem test_wf_rsvd5 : (Instr.tRsvd5 0x2000#29).wellFormed = false := by decide
theorem test_wf_rsvd6 : (Instr.tRsvd6 0x2000#29 true).wellFormed = false := by decide
theorem test_wf_sRsvd : (Instr.sRsvd 0#6 0xFF#8).wellFormed = false := by decide
theorem test_wf_terminal_hold : (Instr.tHold 0#16 true).wellFormed = true := by decide
theorem test_wf_longest_delay : (Instr.tRelease 65535#16 false).wellFormed = true := by decide

/-! ### Decoding: words written out from the spec's encodings (V1, V4, V8, R82, R83) -/

theorem test_decode_commands_v1 :
    ([0x00#8, 0x9F#8, 0x1F#8].map decodeCmd = List.replicate 3 .issueReset) ∧
    ([0x20#8, 0x30#8, 0xB5#8, 0x3F#8].map decodeCmd = List.replicate 4 .issueRead) ∧
    ([0x40#8, 0xCF#8].map decodeCmd = List.replicate 2 (.issueWrite false)) ∧
    ([0x50#8, 0xD0#8, 0x5F#8].map decodeCmd = List.replicate 3 (.issueWrite true)) ∧
    ([0x60#8, 0x70#8, 0xE3#8, 0xFF#8].map decodeCmd = List.replicate 4 .issueRsvd) := by decide

theorem test_decode_tDriveLow : decode (.tdesc 0x01E00001#32) = .ok (.tDriveLow 480#16 false) := by
  decide
theorem test_decode_tRelease : decode (.tdesc 0x00460002#32) = .ok (.tRelease 70#16 false) := by
  decide
theorem test_decode_tSampleOr : decode (.tdesc 0x003C0004#32) = .ok (.tSampleOr 60#16 false) := by
  decide
theorem test_decode_tSampleSet : decode (.tdesc 0x00350003#32) = .ok (.tSampleSet 53#16 false) := by
  decide
theorem test_decode_tHold : decode (.tdesc 0x00360000#32) = .ok (.tHold 54#16 false) := by decide
theorem test_decode_tHold_terminal : decode (.tdesc 0x00000008#32) = .ok (.tHold 0#16 true) := by
  decide
theorem test_decode_tRsvd5 : decode (.tdesc 0x00010005#32) = .ok (.tRsvd5 0x2000#29) := by decide
theorem test_decode_tRsvd7 : decode (.tdesc 0x00010007#32) = .ok (.tRsvd6 0x2000#29 true) := by
  decide
theorem test_decode_tRsvd6 : decode (.tdesc 0x00010006#32) = .ok (.tRsvd6 0x2000#29 false) := by
  decide
theorem test_decode_timer_bit4 : decode (.tdesc 0x00010010#32) = .error .reservedTimerBits := by
  decide
theorem test_decode_timer_bit15 : decode (.tdesc 0x00018000#32) = .error .reservedTimerBits := by
  decide
theorem test_decode_sCapNone : decode (.sdesc 0x8001#16) = .ok (.sCapNone 0x01#8 true) := by decide
theorem test_decode_sCapOrLow : decode (.sdesc 0x01FF#16) = .ok (.sCapOrLow 0xFF#8 false) := by
  decide
theorem test_decode_sCapBit6 : decode (.sdesc 0x9A7F#16) = .ok (.sCapBit 0x7F#8 6#3 true) := by
  decide
theorem test_decode_sCapBit7 : decode (.sdesc 0x9E7F#16) = .ok (.sCapBit 0x7F#8 7#3 true) := by
  decide
theorem test_decode_sRsvd : decode (.sdesc 0x03FF#16) = .ok (.sRsvd 0#6 0xFF#8) := by decide
theorem test_decode_shift_reserved :
    [0x20FF#16, 0x40FF#16, 0x04FF#16, 0x05FF#16].map (fun w => decode (.sdesc w)) =
      List.replicate 4 (.error .reservedShiftBits) := by decide
theorem test_decode_pseudo :
    decode (.pseudo .wait (.r 1)) = .ok (.owWait (.r 1)) ∧
    decode (.pseudo .reset (.r 1)) = .ok (.owReset (.r 1)) ∧
    decode (.pseudo .wrbyte (.r 0)) = .ok (.owWrbyte (.r 0)) ∧
    decode (.pseudo .rdbyte (.r 1)) = .ok (.owRdbyte (.r 1)) ∧
    decode (.stat (.r 7)) = .ok (.poll (.r 7)) := by decide

theorem test_encode_timer :
    encode (.tDriveLow 480#16 false) = .tdesc 0x01E00001#32 ∧
    encode (.tHold 0#16 true) = .tdesc 0x00000008#32 ∧
    encode (.tRsvd6 0x2000#29 true) = .tdesc 0x00010007#32 := by decide
theorem test_encode_shift :
    encode (.sCapBit 0x7F#8 6#3 true) = .sdesc 0x9A7F#16 ∧
    encode (.sCapOrLow 0xFF#8 false) = .sdesc 0x01FF#16 ∧
    encode (.sRsvd 0#6 0xFF#8) = .sdesc 0x03FF#16 := by decide

/-- Which TDESC32 and SDESC16 words are legal (V4, V8). -/
theorem test_legal_words :
    ([0x01E00001#32, 0x00460002#32, 0x003C0004#32, 0x015E0004#32, 0x00350003#32, 0x00360000#32,
      0x00000008#32, 0xFFFF0002#32].map (fun w => (legalDesc .timer (.tdesc w)).isSome) =
        List.replicate 8 true) ∧
    ([0x00000001#32, 0x00010009#32, 0x00010005#32, 0x00010007#32, 0x00010010#32,
      0x00018000#32].map (fun w => (legalDesc .timer (.tdesc w)).isSome) = List.replicate 6 false) ∧
    ([0x0000#16, 0x00FF#16, 0x01FF#16, 0x80FF#16, 0x9A7F#16, 0x8001#16, 0x807F#16,
      0x9E7F#16].map (fun w => (legalDesc .shiftIrq (.sdesc w)).isSome) = List.replicate 8 true) ∧
    ([0x03FF#16, 0x20FF#16, 0x40FF#16, 0x04FF#16,
      0x05FF#16].map (fun w => (legalDesc .shiftPoll (.sdesc w)).isSome) =
        List.replicate 5 false) := by decide

/-- The default tables are legal (rules R147, R181). -/
theorem test_default_tables_legal :
    legalConfig (defaultConfig .timer) = true ∧ legalConfig (defaultConfig .shiftIrq) = true ∧
    legalConfig (defaultConfig .shiftPoll) = true := by decide

theorem test_table_words :
    decodeTableWord 8 0x50 = some (.issueWrite true) ∧
    decodeTableWord 32 0x00460002 = some (.tRelease 70#16 false) ∧
    decodeTableWord 16 0x9A7F = some (.sCapBit 0x7F#8 6#3 true) := by decide

/-! ### The commands and the read (V1, V2, V3, V6, V11) -/

theorem test_issueReset_from_ready :
    got (·.step) (step (withLine (.write 0 1 0x9F#8) (bench .timer))) = some 0x00#8 := by decide
theorem test_issueReset_busy :
    got (fun u => (u.fault, u.step, u.drive))
      (exec .issueReset ((bench .timer).setStep 0x13#8)) =
        some (.issueBusy, 0x13#8, .rel) := by decide
theorem test_issueRead_after_reset :
    got (fun u => (u.step, u.fault))
      (step (withLine (.write 0 1 0x30#8) ((bench .timer).setStep 0x85#8))) =
        some (0x20#8, .none) := by decide
theorem test_issueRead_busy_line_low :
    got (fun u => (u.fault, u.step, u.drive))
      (exec .issueRead (((bench .timer).setStep 0x01#8).setDrive .low)) =
        some (.issueBusy, 0x01#8, .low) := by decide
theorem test_issueWrite_overwrites :
    got (·.step) (exec .issueReset ((bench .timer).setStep 0x95#8)) = some 0x00#8 ∧
    got (·.step) (exec (.issueWrite true) ((bench .timer).setStep 0x95#8)) = some 0x50#8 := by
  decide
theorem test_issueWrite_primes_at_1000us :
    got (fun u => (u.cnt, u.nextT, u.armed))
      (exec (.issueWrite false) ((bench .timer).setNow 1000000)) =
        some (0xFFFE#16, 1002000, true) := by decide
theorem test_issueRsvd_timer :
    got (fun u => (u.step, u.drive))
      (step (withLine (.write 0 1 0x70#8) (bench .timer))) = some (0x60#8, .rel) := by decide
theorem test_issueRsvd_shift_first_pattern :
    got (fun u => (u.txd, u.drive, u.nextT)) (exec .issueRsvd (bench .shiftIrq)) =
      some (0xFF#8, .rel, 72000) := by decide
theorem test_first_patterns_v11 :
    got (fun u => (u.txd, u.drive)) (exec .issueReset (bench .shiftIrq)) = some (0x00#8, .low) ∧
    got (·.txd) (exec .issueRead (bench .shiftPoll)) = some 0x7F#8 ∧
    got (·.txd) (exec (.issueWrite false) (bench .shiftIrq)) = some 0x01#8 ∧
    got (·.txd) (exec (.issueWrite true) (bench .shiftIrq)) = some 0x7F#8 := by decide
theorem test_poll_while_busy :
    got (fun u => (readReg (.r 7) u, u.step))
      (exec (.poll (.r 7)) ((bench .timer).setStep 0x13#8)) = some (0x13#8, 0x13#8) := by decide
theorem test_poll_trapped :
    got (readReg (.r 7)) (exec (.poll (.r 7)) (((bench .timer).setStep 0x60#8).setTrapped true)) =
      some 0x60#8 := by decide

/-! ### The timer's descriptors (V5, V6, rules R148 to R151) -/

theorem test_tDriveLow_reset_tick0 :
    got (fun u => (u.step, u.drive, u.cnt, u.nextT))
      (step (inFlight 0x00#8 2000 (bench .timer))) =
        some (0x01#8, .low, 0xFE20#16, 482000) := by decide
theorem test_tDriveLow_when_low :
    got (·.drive) (exec (.tDriveLow 480#16 false) ((bench .timer).setDrive .low)) = some .low := by
  decide
theorem test_tRelease_reset_tick1_latency :
    got (fun u => (u.step, u.drive, u.cnt, u.nextT))
      (exec (.tRelease 70#16 false) (((bench .timer).setStep 0x01#8).setNow 483200)) =
        some (0x02#8, .rel, 0xFFBA#16, 553200) := by decide
theorem test_tRelease_device_holds :
    got (fun u => (u.drive, line u))
      (exec (.tRelease 70#16 false) (withPull 0 100 ((bench .timer).setDrive .low))) =
        some (.rel, false) := by decide
theorem test_tSampleSet_read_tick2 :
    got (fun u => (u.step, u.nextT)) (step (inFlight 0x22#8 14000 (bench .timer))) =
      some (0x33#8, 67000) := by decide
theorem test_tSampleSet_clears :
    got (·.step) (step (inFlight 0x32#8 14000 (withPull 2000 32000 (bench .timer)))) =
      some 0x23#8 := by decide
theorem test_tSampleOr_reset_tick2_device :
    got (·.step) (step (inFlight 0x02#8 552000 (withPull 502000 622000 (bench .timer)))) =
      some 0x13#8 := by decide
theorem test_tSampleOr_never_clears :
    got (·.step) (step (inFlight 0x13#8 612000 (bench .timer))) = some 0x14#8 := by decide
theorem test_tHold_write0_tick1 :
    got (fun u => (u.step, u.drive, u.nextT))
      (step ((inFlight 0x41#8 8000 (bench .timer)).setDrive .low)) =
        some (0x42#8, .low, 62000) := by decide
theorem test_tHold_terminal :
    got (fun u => (u.step, u.armed)) (step (inFlight 0x04#8 962000 (bench .timer))) =
      some (0x85#8, false) := by decide
theorem test_tRsvd5_refused :
    stopped (exec (.tRsvd5 0#29) (bench .timer)) = some (.inr .illegalDescriptor) := by decide
theorem test_tRsvd6_refused :
    stopped (exec (.tRsvd6 0#29 true) (bench .timer)) = some (.inr .illegalDescriptor) := by decide

/-- A transfer in flight is no CleanEntry (rule R257). -/
theorem test_cleanEntry_no_transfer (e : Engine) : ¬ cleanEntry ((bench e).setXferBusy true) :=
  fun h => Bool.noConfusion h.2.2.2.1

/-- The counter is free-running (rule R32): with no tick armed it counts on at 1 MHz, and wraps. -/
theorem test_counter_runs_unarmed :
    (advanceTo 3000 ((bench .timer).setCnt 0xFFFE#16)).cnt = 0x0001#16 := by decide
/-- A reload's counts come whole microseconds after it: a read 999 ns later sees the reload value. -/
theorem test_counter_phase_after_reload :
    (advanceTo 484199 (reloadTimer 70 ((bench .timer).setNow 483200))).cnt = 0xFFBA#16 ∧
    (advanceTo 484200 (reloadTimer 70 ((bench .timer).setNow 483200))).cnt = 0xFFBB#16 := by decide
/-- NEXT_T means nothing while ARMED = 0 (rules R31, R38): it does not move the counter. -/
theorem test_counter_ignores_nextT_unarmed :
    (advanceTo 1500 ((bench .timer).setNextT 400)).cnt =
      (advanceTo 1500 ((bench .timer).setNextT 900)).cnt := by decide

/-- SAMPLE_SET is no presence sample and SAMPLE_OR is no read sample (rules R119, R120). -/
theorem test_sample_kinds :
    got (fun u => (u.slot.presence, u.slot.reads))
      (exec (.tSampleSet 53#16 false) ((bench .timer).setNow 14000)) = some ([], [14000]) ∧
    got (fun u => (u.slot.presence, u.slot.reads))
      (exec (.tSampleOr 60#16 false) ((bench .timer).setNow 14000)) = some ([14000], []) := by
  decide

/-! ### The shift engine's descriptors (V9, V10, rules R182 to R184) -/

theorem test_sCapNone_keeps_p :
    got (·.step) (exec (.sCapNone 0x7F#8 true) (((bench .shiftIrq).setStep 0x50#8).setRxd 0x00#8)) =
      some 0xD1#8 := by decide
theorem test_sCapNone_next_transfer :
    got (fun u => (u.step, u.txd, u.drive, u.nextT, u.xferBusy))
      (exec (.sCapNone 0x00#8 false) (((bench .shiftIrq).setStep 0x06#8).setNow 504000)) =
        some (0x07#8, 0xFF#8, .rel, 576000, true) := by decide
theorem test_sCapOrLow_one_low_bit :
    got (·.step) (exec (.sCapOrLow 0xFF#8 false) (((bench .shiftIrq).setStep 0x08#8).setRxd 0xFE#8)) =
      some 0x19#8 := by decide
theorem test_sCapOrLow_all_high :
    got (·.step) (exec (.sCapOrLow 0xFF#8 false) (((bench .shiftIrq).setStep 0x08#8).setRxd 0xFF#8)) =
      some 0x09#8 := by decide
theorem test_sCapBit_only_bit6 :
    got (·.step) (exec (.sCapBit 0x7F#8 6#3 true) (((bench .shiftIrq).setStep 0x20#8).setRxd 0x40#8)) =
      some 0xB1#8 := by decide
theorem test_sCapBit_clears :
    got (·.step) (exec (.sCapBit 0x7F#8 6#3 true) (((bench .shiftPoll).setStep 0x30#8).setRxd 0x3F#8)) =
      some 0xA1#8 := by decide
theorem test_sRsvd_refused :
    stopped (exec (.sRsvd 0#6 0xFF#8) (bench .shiftIrq)) = some (.inr .illegalDescriptor) := by decide

/-- RXD after one transfer of `p` that starts at 0 (V9). -/
def transferred (p : Byte) (s : State) : Byte := (advanceTo 72000 (startXfer p 0 s)).rxd

theorem test_capture_no_device :
    [0x00#8, 0xFF#8, 0x7F#8, 0x01#8, 0xAA#8].map (fun p => transferred p (bench .shiftIrq)) =
      [0x00#8, 0xFF#8, 0x7F#8, 0x01#8, 0xAA#8] := by decide
theorem test_capture_with_pull :
    transferred 0xFF#8 (withPull 20000 40000 (bench .shiftIrq)) = 0xCF#8 ∧
    transferred 0x7F#8 (withPull 0 30000 (bench .shiftIrq)) = 0x1F#8 ∧
    transferred 0x7F#8 (withPull 10000 13000 (bench .shiftIrq)) = 0x7F#8 ∧
    transferred 0x7F#8 (withPull 13000 14000 (bench .shiftIrq)) = 0x3F#8 := by decide
theorem test_waveform_ends_on_last_bit :
    (advanceTo 9000 (startXfer 0x7F#8 0 (bench .shiftIrq))).drive = .rel ∧
    (advanceTo 8999 (startXfer 0x7F#8 0 (bench .shiftIrq))).drive = .low ∧
    (advanceTo 80000 (startXfer 0xAA#8 0 (bench .shiftIrq))).drive = .low := by decide
theorem test_levelA_capture_is_the_draw :
    got (·.step) (step ((inFlight 0x20#8 0
      ((State.resetWith { defaultConfig .shiftIrq with level := .untimed }).setInputs
        { State.reset.inputs with bytes := [0xBF#8] })).setXferBusy true)) = some 0xA1#8 := by decide

/-! ### The pseudo-instructions (V3, V15, rules R83, R201 to R204) -/

theorem test_owWait_ready :
    got (readReg (.r 1)) (exec (.owWait (.r 1)) ((bench .timer).setStep 0x95#8)) = some 1#8 := by
  decide
theorem test_owWait_busy :
    got (·.host.micro) (exec (.owWait (.r 1)) ((bench .timer).setStep 0x13#8)) =
      some [.pseudo .wait (.r 1)] := by decide
theorem test_owReset_issues :
    got (fun u => (u.step, u.host.micro)) (exec (.owReset (.r 1)) (bench .timer)) =
      some (0x00#8, [.pseudo .wait (.r 1)]) := by decide
theorem test_owReset_busy :
    got (·.fault) (exec (.owReset (.r 1)) ((bench .timer).setStep 0x02#8)) = some .issueBusy := by
  decide
theorem test_owWrbyte_a5 :
    got (fun u => (u.step, u.host.micro.length))
      (exec (.owWrbyte (.r 0)) (writeReg (.r 0) 0xA5#8 (bench .timer))) = some (0x50#8, 22) := by
  decide
theorem test_owWrbyte_80 :
    got (·.step) (exec (.owWrbyte (.r 0)) (writeReg (.r 0) 0x80#8 (bench .timer))) =
      some 0x40#8 := by decide
theorem test_owRdbyte_issues :
    got (fun u => (u.step, readReg (.r 1) u, u.host.micro.length))
      (exec (.owRdbyte (.r 1)) (writeReg (.r 1) 0xFF#8 (bench .timer))) =
        some (0x20#8, 0x00#8, 31) := by decide
theorem test_owRdbyte_lines :
    (rdbyteLines 0 (.r 1) 7 1) =
      [.write 0 1 0x20#8, .pseudo .wait .t, .shl .t .t 7, .or (.r 1) (.r 1) .t] := by decide
theorem test_writeBit_line :
    got (·.step) (step (withLine (.writeBit .t) (writeReg .t 1#8 (bench .timer)))) =
      some 0x50#8 := by decide

/-! ### Traps, faults, block reset and ties (V2, V14) -/

theorem test_rsvd_tick_traps :
    got (fun u => (u.step, u.trapped, u.armed, u.drive))
      (step (inFlight 0x60#8 2000 (bench .timer))) = some (0x60#8, true, false, .rel) := by decide
theorem test_fault_is_quiescent :
    stopped (step ((inFlight 0x01#8 482000 (bench .timer)).setFault .issueBusy)) =
      some (.inl .quiescent) := by decide
theorem test_block_reset_in_flight :
    got (fun u => (u.step, u.drive, u.armed))
      (step (((inFlight 0x01#8 482000 (bench .timer)).setDrive .low).setInputs
        { (bench .timer).inputs with resets := [300000] })) = some (0x80#8, .rel, false) := by decide
theorem test_block_reset_from_trap :
    got (fun u => (u.step, u.trapped, u.fault))
      (step ((((bench .timer).setStep 0x60#8).setTrapped true).setInputs
        { (bench .timer).inputs with resets := [5000] })) = some (0x80#8, false, .none) := by decide

/-- A POLL and the terminal tick of a RESET at the same instant, 962 µs. -/
def tied (hostFirst : Bool) : State :=
  let s := withLine (.read 0 1 (.r 7)) (inFlight 0x04#8 962000 (bench .timer))
  (s.setHost { s.host with nextAt := 962000 }).setInputs { s.inputs with ties := [hostFirst] }

theorem test_tie_poll_first :
    got (readReg (.r 7)) (step (tied true)) = some 0x04#8 := by decide
theorem test_tie_tick_first : got (·.step) (step (tied false)) = some 0x85#8 := by decide
theorem test_bad_width_refused :
    stopped (step (withLine (.read 0 2 (.r 7)) (bench .timer))) = some (.inr .badAccess) := by decide
theorem test_illegal_configuration_refused :
    stopped (step (withLine (.read 0 1 (.r 7)) (State.resetWith
      { defaultConfig .timer with tables := tablesWith .timer 0 (.tdesc 0x00000001#32) }))) =
        some (.inr .illegalConfiguration) := by decide

/-! ### Witnesses of the statements' hypotheses, at boundary values where a clause has a range -/

/-- A step that answers a next state. -/
def goesOn (o : Host.Outcome State Fault Refusal) : Bool := (got (fun _ => ()) o).isSome

theorem test_witness_DescriptorReencodes :
    decodeTimer 0xFFFFFFFD#32 = .ok (.tRsvd5 0x1FFFFFFF#29) ∧
    decodeTimer 0x00010002#32 = .ok (.tRelease 1#16 false) ∧
    decodeShift 0xFFFF#16 = .ok (.sRsvd 0x3F#6 0xFF#8) ∧
    decodeShift 0x9E7F#16 = .ok (.sCapBit 0x7F#8 7#3 true) := by decide

theorem test_witness_OpcodeMapUnambiguous :
    (⟨"T_RSVD6", .tdesc32, 0x00000006#32, 0x00000006#32⟩ : Row) ∈ opcodeMap ∧
    Row.fits ⟨"T_RSVD6", .tdesc32, 0x00000006#32, 0x00000006#32⟩ 0x00010007#32 = true := by decide

theorem test_witness_DecoderFollowsOpcodeMap :
    Code.formatAndBits (.cmd 0x9F#8) = some (.cmd8, 0x9F#32) ∧
    (⟨"ISSUE_RESET", .cmd8, 0x00#32, 0x60#32⟩ : Row) ∈ opcodeMap ∧
    Row.fits ⟨"ISSUE_RESET", .cmd8, 0x00#32, 0x60#32⟩ 0x9F#32 = true ∧
    Row.fits ⟨"ISSUE_READ", .cmd8, 0x20#32, 0x60#32⟩ 0x9F#32 = false := by decide

/-- A configuration whose RESET table holds the illegal word 0x00000001 (V4). -/
def illegalBench : State :=
  State.resetWith { defaultConfig .timer with tables := tablesWith .timer 0 (.tdesc 0x00000001#32) }

theorem test_witness_IllegalDescriptorWords :
    (∃ table, (keyReset, table) ∈ illegalBench.cfg.tables ∧ .tdesc 0x00000001#32 ∈ table) ∧
    legalDesc illegalBench.cfg.engine (.tdesc 0x00000001#32) = none :=
  ⟨⟨_, .head _, .head _⟩, by decide⟩

/-- The bounds of rule R76: DELAY 1 and 65535 with T = 0, DELAY 0 with T = 1. -/
theorem test_witness_legal_word_bounds :
    (legalDesc .timer (.tdesc 0x00010000#32)).isSome = true ∧
    (legalDesc .timer (.tdesc 0xFFFF0000#32)).isSome = true ∧
    (legalDesc .timer (.tdesc 0x00000000#32)).isSome = false ∧
    (legalDesc .timer (.tdesc 0x0000000C#32)).isSome = true ∧
    (legalDesc .timer (.tdesc 0x0000000D#32)).isSome = false := by decide

theorem test_witness_LegalConfigIsRule117 :
    legalConfig illegalBench.cfg = false ∧ legalConfig (bench .shiftPoll).cfg = true := by decide

/-- A state of ISSUE_BUSY with a block reset pending. -/
def faultedBench : State :=
  ((inFlight 0x01#8 482000 (bench .timer)).setFault .issueBusy).setInputs
    { (bench .timer).inputs with resets := [300000] }

theorem test_witness_BlockResetRecovers :
    legalConfig faultedBench.cfg = true ∧ faultedBench.inputs.resets = [300000] ∧
    faultedBench.fault ≠ .none := by decide

/-- A block reset next: a sequence in flight, a trapped state, and a fault state. -/
theorem test_witness_BlockResetRecovers_all :
    nextTurn ((inFlight 0x01#8 482000 (bench .timer)).setInputs
      { (bench .timer).inputs with resets := [300000] }) = .reset 300000 ∧
    nextTurn ((((bench .shiftIrq).setStep 0x60#8).setTrapped true).setInputs
      { (bench .timer).inputs with resets := [5000] }) = .reset 5000 ∧
    nextTurn faultedBench = .reset 300000 := by decide

theorem test_witness_OnlyBlockResetClears :
    goesOn (step faultedBench) = true ∧
    goesOn (step (inFlight 0x60#8 2000 (bench .timer))) = true ∧
    goesOn (step (withLine (.read 0 1 .t) (((bench .timer).setStep 0x60#8).setTrapped true))) =
      true := by decide

theorem test_witness_IssueStartsSequence :
    (bench .timer).ready = true ∧ ((bench .shiftIrq).setStep 0x9E#8).ready = true := by decide

theorem test_witness_IssueWhileBusyFaults :
    ((bench .timer).setStep 0x7F#8).ready = false ∧ ((bench .timer).setStep 0x00#8).ready = false := by
  decide

/-- For WrittenByteIssues, OwResetIssues, OwWrbyteIssues and OwRdbyteIssues. -/
theorem test_witness_facade_issues :
    ((bench .timer).setStep 0x95#8).ready = true ∧ ((bench .shiftPoll).setStep 0xB1#8).ready = true := by
  decide

theorem test_witness_OwWaitPolls :
    ((bench .timer).setStep 0x95#8).ready = true ∧ ((bench .timer).setStep 0x13#8).ready = false := by
  decide

theorem test_witness_BadAccessRefused :
    nextTurn (withLine (.write 0 2 0#8) (bench .timer)) = .host 0 ∧
    nextTurn (withLine (.read 1 1 .t) (bench .timer)) = .host 0 := by decide

/-- The timer's forms: DELAY 1 and 65535 with T = 0, DELAY 0 with T = 1. -/
theorem test_witness_timer_ticks :
    (bench .timer).cfg.engine = .timer ∧ (true = true ↔ (0#16 : BitVec 16) = 0#16) ∧
    (false = true ↔ (1#16 : BitVec 16) = 0#16) ∧ (false = true ↔ (65535#16 : BitVec 16) = 0#16) := by
  decide

/-- A shift descriptor that is not its table's last, at both ends of the RESET table. -/
theorem test_witness_SCapNoneTick :
    (bench .shiftIrq).cfg.engine ≠ .timer ∧
    lookupDesc (bench .shiftIrq).cfg ((bench .shiftIrq).setStep 0x00#8).key
      (((bench .shiftIrq).setStep 0x00#8).prog + 1#4).toNat = some (.sdesc 0x0000#16) ∧
    lookupDesc (bench .shiftIrq).cfg ((bench .shiftIrq).setStep 0x0C#8).key
      (((bench .shiftIrq).setStep 0x0C#8).prog + 1#4).toNat = some (.sdesc 0x80FF#16) := by decide

theorem test_witness_SCapOrLowTick :
    lookupDesc (bench .shiftPoll).cfg (keyOf (withResult true 0x08#8))
      (((bench .shiftPoll).setStep 0x08#8).prog + 1#4).toNat = some (.sdesc 0x01FF#16) := by decide

/-- A legal READ table of two transfers, whose first captures a bit. -/
theorem test_witness_SCapBitTick :
    lookupDesc { (bench .shiftIrq).cfg with
        tables := [(keyRead, [.sdesc 0x1A7F#16, .sdesc 0x80FF#16])] } (keyOf (withResult true 0x20#8))
      ((stepProg 0x20#8) + 1#4).toNat = some (.sdesc 0x80FF#16) := by decide

theorem test_witness_DescriptorStops :
    (bench .shiftIrq).cfg.engine ≠ .timer ∧ ¬(true = true ↔ (1#16 : BitVec 16) = 0#16) ∧
    ¬(false = true ↔ (0#16 : BitVec 16) = 0#16) ∧
    lookupDesc (bench .shiftIrq).cfg ((bench .shiftIrq).setStep 0x0D#8).key
      (((bench .shiftIrq).setStep 0x0D#8).prog + 1#4).toNat = none := by decide

theorem test_witness_StepRunsDecodedInstr :
    nextTurn (inFlight 0x00#8 2000 (bench .timer)) = .tick 2000 ∧
    fetchDesc (enterTick (advanceTo 2000 (settleTie (inFlight 0x00#8 2000 (bench .timer))))) =
      some (.tdesc 0x01E00001#32) ∧
    nextTurn (withLine (.pseudo .wait .t) (bench .timer)) = .host 0 ∧
    lineKind (.pseudo .wait .t) (bench .timer) = .code (.pseudo .wait .t) ∧
    nextTurn (withLine (.li .t 1#8) (bench .timer)) = .host 0 ∧
    lineKind (.li .t 1#8) (bench .timer) = .inHost := by decide

theorem test_witness_StepEntry :
    (bench .timer).cfg.level = .timed ∧
    (State.resetWith { defaultConfig .shiftIrq with level := .untimed }).cfg.level = .untimed ∧
    (withLine (.li .t 1#8) (bench .timer)).host.micro = [.li .t 1#8] ∧
    (bench .timer).host.micro = [] := by decide

theorem test_witness_PlacedWordRuns :
    decodeTableWord 8 0x04 = some .issueReset ∧ decodeTableWord 8 0x08 = some .issueReset ∧
    decodeTableWord 8 0xFF = some .issueRsvd := by decide

theorem test_witness_TurnsInTimeOrder :
    nextTurn (inFlight 0x00#8 2000 (bench .timer)) = .tick 2000 ∧
    nextTurn (withLine (.li .t 1#8) (bench .timer)) = .host 0 ∧
    nextTurn (bench .timer) = .idle ∧
    nextTurn (withLine (.li .t 1#8) ((bench .shiftPoll).setStep 0x00#8)) = .idle := by decide

theorem test_witness_LatencyAndTiesAreFree :
    hostTime (tied true) = some 962000 ∧ tickTime (tied true) = some 962000 ∧
    (tied false).inputs.ties = [false] := by decide

theorem test_witness_TrapWithoutDescriptor :
    nextTurn (inFlight 0x60#8 2000 (bench .timer)) = .tick 2000 ∧
    fetchDesc (enterTick (advanceTo 2000 (settleTie (inFlight 0x60#8 2000 (bench .timer))))) =
      none := by decide

/-- Reset leaves a CleanEntry state on every engine (rule R256): the premise of ReservedOperationTraps
and SequenceTakesNTicks. -/
theorem test_witness_cleanEntry (e : Engine) : cleanEntry (bench e) := by
  cases e <;> exact ⟨by decide, by decide, by decide, by decide, by decide, by decide, by decide⟩

theorem test_witness_FaultStateQuiescent :
    ((bench .timer).setFault .issueBusy).fault ≠ .none ∧
    ((bench .timer).setFault .issueBusy).inputs.resets = [] := by decide

theorem test_witness_ShiftPollBlocksHost :
    ((inFlight 0x00#8 72000 (bench .shiftPoll)).ready = false) ∧
    goesOn (step (inFlight 0x00#8 72000 (bench .shiftPoll))) = true ∧
    (bench .timer).cfg.engine ≠ .shiftPoll ∧ (bench .shiftPoll).ready = true ∧
    ((bench .shiftPoll).setTrapped true).trapped = true := by decide

theorem test_witness_HostReadsKeepStep :
    nextTurn (withLine (.read 0 1 .t) (bench .timer)) = .host 0 ∧
    goesOn (step (withLine (.read 0 1 .t) (bench .timer))) = true ∧
    goesOn (step (withLine (.pseudo .wait .t) (bench .timer))) = true := by decide

theorem test_witness_ConfigAndClock :
    goesOn (step (inFlight 0x00#8 2000 (bench .timer))) = true := by decide

/-- The invariant holds at reset, with FAULT = NONE, and a Host step goes on: the premises of
InvariantKept and InvariantGivesR39. -/
theorem test_witness_InvariantKept_ready : Invariant (withLine (.write 0 1 0x00#8) (bench .timer)) ∧
    goesOn (step (withLine (.write 0 1 0x00#8) (bench .timer))) = true :=
  ⟨fun _ => ⟨fun _ => ⟨rfl, rfl, rfl, rfl, .inl rfl⟩, fun h => Bool.noConfusion h,
    fun h _ => Bool.noConfusion h⟩, by decide⟩

/-- The invariant holds in the middle of a RESET of the timer, where a tick goes on. -/
theorem test_witness_InvariantKept_inFlight :
    Invariant (inFlight 0x02#8 552000 (bench .timer)) ∧
    goesOn (step (inFlight 0x02#8 552000 (bench .timer))) = true := by
  refine ⟨fun _ => ⟨fun h => Bool.noConfusion h, fun h => Bool.noConfusion h, fun _ _ => ⟨rfl, ⟨rfl, ?_⟩, ?_⟩⟩,
    by decide⟩
  · intro table h
    cases h
    decide
  · intro n h
    cases h
    decide

theorem test_witness_WriteKeepsResult :
    nextTurn (inFlight 0x50#8 2000 (bench .timer)) = .tick 2000 ∧
    (inFlight 0x50#8 2000 (bench .timer)).op = 0b10#2 ∧
    goesOn (step (inFlight 0x50#8 2000 (bench .timer))) = true ∧
    goesOn (step (inFlight 0xC4#8 2000 (bench .timer))) = true := by decide

theorem test_witness_TickAdvancesProg :
    goesOn (step (inFlight 0x00#8 2000 (bench .timer))) = true ∧
    goesOn (step (inFlight 0x60#8 2000 (bench .timer))) = true := by decide

theorem test_witness_SequenceTakesNTicks :
    stepCount (bench .timer).cfg (keyOf (issuedStep 0x9F#8)) = some 5 ∧
    stepCount (bench .shiftPoll).cfg (keyOf (issuedStep 0x00#8)) = some 14 ∧
    stepCount (bench .shiftIrq).cfg (keyOf (issuedStep 0x5F#8)) = some 1 := by decide

theorem test_witness_ShiftVariantsAgree :
    (bench .shiftIrq).cfg.engine = .shiftIrq ∧
    goesOn (ticks 1 (issue 0x20#8 (bench .shiftIrq))) = true := by decide

theorem test_witness_FacadeNeverIssuesBusy :
    facadeHost (withLine (.pseudo .wrbyte (.r 0)) (bench .timer)) ∧
    goesOn (step (withLine (.pseudo .wrbyte (.r 0)) (bench .timer))) = true :=
  ⟨⟨rfl, by decide, rfl⟩, by decide⟩

theorem test_witness_TimerOverflowsAtNextTick :
    (bench .timer).cfg.level = .timed ∧ (bench .timer).cfg.engine = .timer ∧
    (advanceTo 480000 (reloadTimer 480 (bench .timer))).cnt = 0x0000#16 ∧
    (advanceTo 0 (reloadTimer 65535 (bench .timer))).cnt = 0x0001#16 ∧
    (advanceTo 480999 (reloadTimer 480 (bench .timer))).cnt = 0x0000#16 := by decide

theorem test_witness_Transfers :
    (bench .shiftIrq).cfg.level = .timed ∧ (bench .shiftIrq).cfg.engine ≠ .timer ∧
    (bench .shiftIrq).bus.responders = [] := by decide

/-- A READ of the timer whose latencies meet the bound of 1.5 µs exactly (V7). -/
def latencyBench : State :=
  { (bench .timer) with
    cfg := { defaultConfig .timer with lMax := 1500 }
    inputs := { (bench .timer).inputs with lats := [0, 1500, 1500, 0] } }

theorem test_witness_DefaultTablesConforming :
    cleanEntry latencyBench ∧
    stepCount latencyBench.cfg (keyOf (issuedStep 0x20#8)) = some 4 ∧
    got (fun u => (u.slot.tL, u.slot.tR, u.slot.reads, u.slot.tE))
      (ticks 4 (accept 0x20#8 latencyBench)) =
        some (some 2000, some 5500, [17000], some 70000) :=
  ⟨⟨by decide, by decide, by decide, by decide, by decide, by decide, by decide⟩, by decide, by decide⟩

/-- SHIFT_* with the latency bound of rule R263, 14.25 µs, and two draws that meet it. -/
def shiftLatencyBench (e : Engine) : State :=
  { (bench e) with
    cfg := { defaultConfig e with lMax := 14250 }
    inputs := { (bench e).inputs with lats := [14250, 14250, 0] } }

/-- That instance in a RESET, with the line released at 504 µs and transfer 7 ending at 576 µs. -/
def shiftReleased : State :=
  (((inFlight 0x07#8 576000 (shiftLatencyBench .shiftIrq)).setTxd 0xFF#8).setNow 504000).setXferStart
    504000

/-- The last presence sample is then 240 µs after release, the bound of rule R119. -/
theorem test_witness_DefaultTablesConforming_shift :
    cleanEntry (shiftLatencyBench .shiftIrq) ∧ cleanEntry (shiftLatencyBench .shiftPoll) ∧
    stepCount (shiftLatencyBench .shiftIrq).cfg (keyOf (issuedStep 0x00#8)) = some 14 ∧
    got (fun u => (u.slot.presence.head?, u.slot.presence.getLast?)) (ticks 3 shiftReleased) =
      some (some 594750, some 744000) :=
  ⟨⟨by decide, by decide, by decide, by decide, by decide, by decide, by decide⟩,
    ⟨by decide, by decide, by decide, by decide, by decide, by decide, by decide⟩, by decide, by decide⟩

theorem test_witness_DefaultTablesResultAtReady (e : Engine) :
    cleanEntry (bench e) ∧ (bench e).cfg.level = .timed ∧
    (bench e).cfg.tables = defaultTables (bench e).cfg.engine := ⟨test_witness_cleanEntry e, rfl, rfl⟩

/-- Level A, with draws that are given and with none. -/
theorem test_witness_DefaultTablesResultAtReady_untimed (e : Engine) :
    cleanEntry (State.resetWith { defaultConfig e with level := .untimed }) ∧
    (State.resetWith { defaultConfig e with level := .untimed }).cfg.tables = defaultTables e := by
  cases e <;>
    exact ⟨⟨by decide, by decide, by decide, by decide, by decide, by decide, by decide⟩, rfl⟩

/-- An instance with the loop-back responder, Q empty, and no other device. -/
def loopBench (e : Engine) : State :=
  (State.resetWith (defaultConfig e)).setBus
    { pulls := [], responders := [.loopback [] true], free := false }

theorem test_witness_LoopbackRoundTrips (e : Engine) :
    cleanEntry (loopBench e) ∧ (loopBench e).cfg.level = .timed ∧ (loopBench e).cfg.engine = e ∧
    (loopBench e).cfg.tables = defaultTables (loopBench e).cfg.engine ∧
    (loopBench e).cfg.lMax ≤ 1500 ∧ (loopBench e).bus.responders = [.loopback [] true] ∧
    (∀ t, pull (loopBench e).bus t = false) ∧
    [(0, 0x40#8), (5000, 0x50#8), (0, 0x20#8), (7, 0x20#8)].map Prod.snd =
      [false, true].map (fun v => if v then 0x50#8 else 0x40#8) ++ List.replicate 2 0x20#8 := by
  refine ⟨?_, rfl, rfl, rfl, Nat.zero_le _, rfl, fun _ => rfl, by decide⟩
  cases e <;> exact ⟨by decide, by decide, by decide, by decide, by decide, by decide, by decide⟩

/-- A read with a 0 at the head of Q, whose step count is each engine's. -/
theorem test_witness_LoopbackRoundTrips_read :
    stepCount (loopBench .timer).cfg (keyOf (issuedStep 0x20#8)) = some 4 ∧
    stepCount (loopBench .shiftPoll).cfg (keyOf (issuedStep 0x20#8)) = some 1 ∧
    [false, true].head? = some false ∧ Reg.r 1 ≠ .t ∧ readReg (.r 1) (loopBench .timer) = 0#8 := by
  decide

/-- The premises of EnginesAgreeOnProto about the start, on each engine. -/
theorem test_witness_EnginesAgreeOnProto (e : Engine) :
    cleanEntry (bench e) ∧ (bench e).cfg.level = .timed ∧ (bench e).cfg.engine = e ∧
    (bench e).cfg.tables = defaultTables e ∧ (bench e).cfg.lMax ≤ 1500 :=
  ⟨test_witness_cleanEntry e, rfl, rfl, rfl, Nat.zero_le _⟩

/-- Each engine reads from CleanEntry to READY, with no device: a run in PROTO, its arm `false`. -/
theorem test_witness_EnginesAgreeOnProto_runs (e : Engine) :
    ∃ u, sequenceEnds (bench e).cfg 0x20#8 u ∧ slotInProto u false ∧ u.result = true := by
  cases e
  · exact ⟨_, ⟨bench .timer, 4, rfl, test_witness_cleanEntry _, by decide, rfl⟩,
      ⟨_, _, _, rfl, rfl, rfl, fun _ _ _ _ => rfl, fun _ _ _ _ => rfl⟩, by decide⟩
  · exact ⟨_, ⟨bench .shiftIrq, 1, rfl, test_witness_cleanEntry _, by decide, rfl⟩,
      ⟨_, _, _, rfl, rfl, rfl, fun _ _ _ _ => rfl, fun _ _ _ _ => rfl⟩, by decide⟩
  · exact ⟨_, ⟨bench .shiftPoll, 1, rfl, test_witness_cleanEntry _, by decide, rfl⟩,
      ⟨_, _, _, rfl, rfl, rfl, fun _ _ _ _ => rfl, fun _ _ _ _ => rfl⟩, by decide⟩

/-- The end of a READ whose slot lies over [0, 72 µs), with a device that pulls over `[lo, hi)`. -/
def readEnded (lo hi : Nat) : State :=
  (withPull lo hi ((bench .shiftIrq).setStep 0xB1#8)).setSlot
    { tL := some 0, tR := some 9000, relow := false, presence := [], reads := [13500],
      tE := some 72000 }

/-- Both arms of PROTO at their bounds for a read: a pull that ends before the slot, and a pull over its
first 15 µs, the last instant among them. -/
theorem test_witness_EnginesAgreeOnProto_read :
    slotInProto (readEnded 72000 73000) false ∧ slotInProto (readEnded 0 15001) true := by
  refine ⟨⟨0, 9000, 72000, rfl, rfl, rfl, fun h => absurd h (by decide), fun _ => ?_⟩,
    ⟨0, 9000, 72000, rfl, rfl, rfl, fun h => absurd h (by decide), fun _ => ?_⟩⟩ <;>
    simp [readEnded, pull, withPull] <;> omega

/-- The end of a RESET with release at 504 µs and its end at 1008 µs, with a device that pulls over
`[lo, hi)`. -/
def resetEnded (lo hi : Nat) : State :=
  (withPull lo hi ((bench .shiftIrq).setStep 0x9E#8)).setSlot
    { tL := some 0, tR := some 504000, relow := false, presence := [580500], reads := [],
      tE := some 1008000 }

theorem test_witness_EnginesAgreeOnProto_reset :
    slotInProto (resetEnded 400000 504000) false ∧ slotInProto (resetEnded 564000 599000) true := by
  refine ⟨⟨0, 504000, 1008000, rfl, rfl, rfl, fun _ => ?_, fun h => absurd h (by decide)⟩,
    ⟨0, 504000, 1008000, rfl, rfl, rfl, fun _ => ?_, fun h => absurd h (by decide)⟩⟩ <;>
    simp [resetEnded, pull, withPull] <;> omega

/-- A completed write is in PROTO with any Pull: here one over the whole slot. -/
theorem test_witness_EnginesAgreeOnProto_write (pulls : Bool) :
    slotInProto (((readEnded 0 72000).setStep 0xD1#8)) pulls :=
  ⟨0, 9000, 72000, rfl, rfl, rfl, fun h => absurd h (by decide), fun h => absurd h (by decide)⟩

end Sys2Proof.Tests
end

section
/-! O50 (rules R2, R180): the two variants of the Shift-Clock Engine. `asPoll` commutes with every
operation that a command or a tick of a shift engine is made of, because those read the engine only to
tell TIMER from SHIFT_*. The one operation that tells the two variants apart, `hostBlocked`, is the
Host's, and no command and no tick uses it. -/

namespace Sys2Proof.Machine

/-! ### What the change of variant leaves as it was -/

@[simp] theorem asPoll_level (s : State) : (asPoll s).cfg.level = s.cfg.level := rfl
@[simp] theorem asPoll_base (s : State) : (asPoll s).cfg.base = s.cfg.base := rfl
@[simp] theorem asPoll_now (s : State) : (asPoll s).now = s.now := rfl
@[simp] theorem asPoll_slot (s : State) : (asPoll s).slot = s.slot := rfl
@[simp] theorem asPoll_xferBusy (s : State) : (asPoll s).xferBusy = s.xferBusy := rfl
@[simp] theorem asPoll_ready (s : State) : (asPoll s).ready = s.ready := rfl
@[simp] theorem readReg_asPoll (r : Reg) (s : State) : readReg r (asPoll s) = readReg r s := rfl
@[simp] theorem fetchDesc_asPoll (s : State) : fetchDesc (asPoll s) = fetchDesc s := rfl
@[simp] theorem primePattern_asPoll (s : State) : primePattern (asPoll s) = primePattern s := rfl

@[simp] theorem setStep_asPoll (w : Byte) (s : State) :
    (asPoll s).setStep w = asPoll (s.setStep w) := rfl
@[simp] theorem noteIssue_asPoll (op : BitVec 2) (s : State) :
    noteIssue op (asPoll s) = asPoll (noteIssue op s) := rfl
@[simp] theorem advanceProg_asPoll (s : State) :
    advanceProg (asPoll s) = asPoll (advanceProg s) := rfl

@[simp] theorem writeReg_asPoll (r : Reg) (v : Byte) (s : State) :
    writeReg r v (asPoll s) = asPoll (writeReg r v s) := rfl
@[simp] theorem pushLines_asPoll (ls : List HostOp) (s : State) :
    pushLines ls (asPoll s) = asPoll (pushLines ls s) := rfl
@[simp] theorem pollPass_asPoll (s : State) : pollPass (asPoll s) = asPoll (pollPass s) := rfl

/-- SHIFT_POLL is no TIMER, so the laws of the shift engines hold of it. -/
theorem asPoll_engine_ne_timer (s : State) : (asPoll s).cfg.engine ≠ .timer := by
  simp [asPoll]

/-! ### The line, the samples and the transfer -/

theorem noteDrive_asPoll (t : Nat) (d : Drive) (s : State) :
    noteDrive t d (asPoll s) = asPoll (noteDrive t d s) := by
  simp only [noteDrive, asPoll_level, asPoll_slot]
  split <;> rfl

theorem driveAt_asPoll (t : Nat) (d : Drive) (s : State) :
    driveAt t d (asPoll s) = asPoll (driveAt t d s) :=
  noteDrive_asPoll t d (s.setDrive d)

theorem noteSamples_asPoll (kind : SampleKind) (ts : List Nat) (s : State) :
    noteSamples kind ts (asPoll s) = asPoll (noteSamples kind ts s) := by
  simp only [noteSamples, asPoll_level]
  split <;> rfl

theorem startXfer_asPoll (p : Byte) (st : Nat) (s : State) :
    startXfer p st (asPoll s) = asPoll (startXfer p st s) :=
  congrArg (armTick (st + tXfer)) (driveAt_asPoll st (cellDrive p 0)
    (((s.setTxd p).setXferBusy true).setXferStart (atLevel s.cfg.level st s.xferStart)))

theorem terminal_asPoll (s : State) : terminal (asPoll s) = asPoll (terminal s) := by
  simp only [terminal, noteReady, disarm_eq, State.setArmed_cfg, State.setStep_cfg, asPoll_level]
  split <;> rfl

/-! ### The clock's advance -/

theorem applyCell_asPoll (t : Nat) (e : CellEvent) (s : State) :
    applyCell t e (asPoll s) = asPoll (applyCell t e s) := by
  cases e with
  | drive k => exact driveAt_asPoll t (cellDrive s.txd k) s
  | sample k => rfl
  | done => rfl

theorem applyCells_asPoll (lo hi : Nat) (es : List (Nat × CellEvent)) (s : State) :
    applyCells lo hi es (asPoll s) = asPoll (applyCells lo hi es s) := by
  induction es generalizing s with
  | nil => rfl
  | cons e rest ih =>
    simp only [applyCells, applyCell_asPoll, ← apply_ite asPoll, ih]

theorem runXfer_asPoll (t : Nat) (s : State) : runXfer t (asPoll s) = asPoll (runXfer t s) := by
  simp only [runXfer, asPoll_xferBusy, apply_ite asPoll]
  exact if_congr Iff.rfl (applyCells_asPoll s.now t (cellEvents s.xferStart 0 8) s) rfl

theorem advanceTo_asPoll (t : Nat) {s : State} (he : s.cfg.engine ≠ .timer) :
    advanceTo t (asPoll s) = asPoll (advanceTo t s) := by
  cases hl : s.cfg.level with
  | untimed => rw [advanceTo_untimed hl, advanceTo_untimed (s := asPoll s) hl]
  | timed =>
    rw [advanceTo_shift hl he, advanceTo_shift (s := asPoll s) hl (asPoll_engine_ne_timer s),
      runXfer_asPoll]
    rfl

/-! ### Commands -/

theorem accept_asPoll (w : Byte) {s : State} (he : s.cfg.engine ≠ .timer) :
    accept w (asPoll s) = asPoll (accept w s) := by
  simp only [accept_shift w he, accept_shift w (asPoll_engine_ne_timer s), setStep_asPoll,
    primePattern_asPoll, asPoll_now, noteIssue_asPoll, startXfer_asPoll]

/-- A command leaves the same state on both variants, accepted or turned away (rules R101, R180). -/
theorem issue_asPoll (w : Byte) {s : State} (he : s.cfg.engine ≠ .timer) :
    issue w (asPoll s) = asPoll (issue w s) := by
  cases hr : s.ready with
  | false => rw [issue_busy w hr, issue_busy w ((asPoll_ready s).trans hr)]; rfl
  | true =>
    rw [issue_ready w hr, issue_ready w ((asPoll_ready s).trans hr), accept_asPoll w he]

/-! ### Instructions -/

theorem captureOrLow_asPoll (s : State) : captureOrLow (asPoll s) = asPoll (captureOrLow s) :=
  noteSamples_asPoll .presence _ (setResult (resultCapOrLow s.result s.rxd) s)

theorem captureBit_asPoll (bitsel : BitVec 3) (s : State) :
    captureBit bitsel (asPoll s) = asPoll (captureBit bitsel s) :=
  noteSamples_asPoll .read _ (setResult (resultCapBit s.rxd bitsel) s)

theorem continueShift_asPoll {s u : State} (h : continueShift s = .next u) :
    continueShift (asPoll s) = .next (asPoll u) := by
  obtain ⟨c, p, hc, hp, rfl⟩ := continueShift_next h
  simp only [continueShift, fetchDesc_asPoll, hc, hp, startXfer_asPoll]
  rfl

/-- A shift descriptor runs alike on both variants where its capture rule does (rule R180). -/
theorem runShift_asPoll {capture : State → State} {t : Bool} {s u : State}
    (hcap : capture (asPoll s) = asPoll (capture s)) (h : runShift capture t s = .next u) :
    runShift capture t (asPoll s) = .next (asPoll u) := by
  rw [runShift_eq capture t (asPoll_engine_ne_timer s), hcap, advanceProg_asPoll]
  obtain ⟨-, ⟨rfl, rfl⟩ | ⟨rfl, hcont⟩⟩ := runShift_next h
  · rw [if_pos rfl, terminal_asPoll]
  · exact continueShift_asPoll hcont

/-- An instruction that goes on on a shift engine goes on alike on SHIFT_POLL. No timer
descriptor goes on there (rule R80). -/
theorem exec_asPoll (i : Instr) {s u : State} (he : s.cfg.engine ≠ .timer)
    (h : exec i s = .next u) : exec i (asPoll s) = .next (asPoll u) := by
  cases i with
  | issueReset => cases h; exact congrArg Host.Outcome.next (issue_asPoll _ he)
  | issueRead => cases h; exact congrArg Host.Outcome.next (issue_asPoll _ he)
  | issueWrite p => cases h; exact congrArg Host.Outcome.next (issue_asPoll _ he)
  | issueRsvd => cases h; exact congrArg Host.Outcome.next (issue_asPoll _ he)
  | poll rd => cases h; rfl
  | tHold d t => exact absurd (runTimer_next (perform := fun s => s) h).1 he
  | tDriveLow d t => exact absurd (runTimer_next (perform := driveLine .low) h).1 he
  | tRelease d t => exact absurd (runTimer_next (perform := driveLine .rel) h).1 he
  | tSampleSet d t => exact absurd (runTimer_next (perform := performSampleSet) h).1 he
  | tSampleOr d t => exact absurd (runTimer_next (perform := performSampleOr) h).1 he
  | tRsvd5 r => cases h
  | tRsvd6 r b => cases h
  | sCapNone p t => exact runShift_asPoll (capture := fun s => s) rfl h
  | sCapOrLow p t => exact runShift_asPoll (captureOrLow_asPoll s) h
  | sCapBit p b t => exact runShift_asPoll (captureBit_asPoll b s) h
  | sRsvd r p => cases h
  | owWait rd =>
    cases h
    simp only [exec, execOwWait, pollPass_asPoll, readReg_asPoll, pushLines_asPoll, writeReg_asPoll,
      apply_ite asPoll]
    congr
  | owReset rd =>
    cases h
    simp only [exec, execOwReset, pushLines_asPoll]
    rw [issue_asPoll _ (by rwa [pushLines_cfg])]
  | owWrbyte rs =>
    cases h
    simp only [exec, execOwWrbyte, pushLines_asPoll, writeReg_asPoll, readReg_asPoll]
    rw [issue_asPoll _ (by rwa [pushLines_cfg, writeReg_cfg])]
  | owRdbyte rd =>
    cases h
    simp only [exec, execOwRdbyte, pushLines_asPoll, writeReg_asPoll, asPoll_base]
    rw [issue_asPoll _ (by rwa [pushLines_cfg, writeReg_cfg])]

/-! ### Ticks -/

theorem enterTick_asPoll {s : State} (he : s.cfg.engine ≠ .timer) :
    enterTick (asPoll s) = asPoll (enterTick s) := by
  cases hl : s.cfg.level with
  | timed => rw [enterTick_timed hl, enterTick_timed (s := asPoll s) hl]; rfl
  | untimed =>
    rw [enterTick_untimed_shift hl he,
      enterTick_untimed_shift (s := asPoll s) hl (asPoll_engine_ne_timer s)]
    rfl

theorem tickStep_asPoll {s u : State} (he : s.cfg.engine ≠ .timer) (h : tickStep s = .next u) :
    tickStep (asPoll s) = .next (asPoll u) := by
  simp only [tickStep, enterTick_asPoll he, fetchDesc_asPoll]
  obtain ⟨hf, rfl⟩ | ⟨c, i, hf, hd, hexec⟩ := tickStep_next h
  · rw [hf]; rfl
  · simp only [hf, hd]
    exact exec_asPoll i (by rwa [enterTick_cfg]) hexec

/-- No tick changes the configuration (rule R36). -/
theorem tickStep_cfg {s u : State} (h : tickStep s = .next u) : u.cfg = s.cfg := by
  obtain ⟨-, rfl⟩ | ⟨c, i, -, -, hexec⟩ := tickStep_next h
  · simp
  · exact (exec_keeps i hexec).2.1.trans (enterTick_cfg s)

theorem tickOnce_cfg {s u : State} (h : tickOnce s = .next u) : u.cfg = s.cfg :=
  (tickStep_cfg h).trans (advanceTo_cfg s _)

theorem tickOnce_asPoll {s u : State} (he : s.cfg.engine ≠ .timer) (h : tickOnce s = .next u) :
    tickOnce (asPoll s) = .next (asPoll u) := by
  show tickStep (advanceTo (due s (s.nextT + latency s)) (asPoll s)) = _
  rw [advanceTo_asPoll _ he]
  exact tickStep_asPoll (by rwa [advanceTo_cfg]) h

/-- Ticks that go on begin with one that goes on. -/
theorem ticks_succ_next {n : Nat} {s u : State} (h : ticks (n + 1) s = .next u) :
    ∃ v, tickOnce s = .next v ∧ ticks n v = .next u := by
  rw [ticks] at h
  split at h
  · exact ⟨_, ‹_›, h⟩
  · cases h
  · cases h

/-- Any number of ticks leaves the same state on both variants (rule R180). -/
theorem ticks_asPoll {n : Nat} {s u : State} (he : s.cfg.engine ≠ .timer)
    (h : ticks n s = .next u) : ticks n (asPoll s) = .next (asPoll u) := by
  induction n generalizing s with
  | zero => cases h; rfl
  | succ n ih =>
    obtain ⟨v, hv, hrest⟩ := ticks_succ_next h
    rw [ticks, tickOnce_asPoll he hv]
    exact ih (by rwa [tickOnce_cfg hv]) hrest

/-- Settles O50: a command and each tick commute with `asPoll`. -/
theorem shiftVariantsAgree : Obligations.ShiftVariantsAgree := by
  intro s hirq
  have he : s.cfg.engine ≠ .timer := by simp [hirq]
  exact ⟨fun w => issue_asPoll w he, fun _ _ h => ticks_asPoll he h⟩

end Sys2Proof.Machine
end

section
/-! The Host's step, in one inversion lemma, and the command that it issues (rules R26, R58, R101). -/

namespace Sys2Proof.Machine

/-! ### What a Host step touches -/

/-- `u` is `s` but for the Host agent and the draws. -/
def hostMoved (s u : State) : Prop := ∃ h i, u = (s.setHost h).setInputs i

theorem hostMoved_refl (s : State) : hostMoved s s := ⟨s.host, s.inputs, rfl⟩

theorem setHost_moves (h : HostCtx) (s : State) : hostMoved s (s.setHost h) := ⟨h, s.inputs, rfl⟩

theorem setInputs_moves (i : Inputs) (s : State) : hostMoved s (s.setInputs i) := ⟨s.host, i, rfl⟩

theorem hostMoved_trans {s v u : State} (hv : hostMoved s v) (hu : hostMoved v u) :
    hostMoved s u := by
  obtain ⟨_, _, rfl⟩ := hv
  obtain ⟨h, i, rfl⟩ := hu
  exact ⟨h, i, rfl⟩

theorem settleTie_moves (s : State) : hostMoved s (settleTie s) := by
  unfold settleTie
  split
  · split
    · exact setInputs_moves _ s
    · exact hostMoved_refl s
  · exact hostMoved_refl s

theorem passLine_moves (s : State) : hostMoved s (passLine s) := by
  unfold passLine
  split <;> exact setHost_moves _ s

theorem enterHost_moves (s : State) : hostMoved s (enterHost s) :=
  have hgap : hostMoved s (useGap s) := setInputs_moves _ s
  hostMoved_trans (hostMoved_trans hgap (passLine_moves _)) (setHost_moves _ _)

theorem writeReg_moves (r : Reg) (v : Byte) (s : State) : hostMoved s (writeReg r v s) :=
  setHost_moves _ s

theorem pushLines_moves (ls : List HostOp) (s : State) : hostMoved s (pushLines ls s) :=
  setHost_moves _ s

theorem pollPass_moves (s : State) : hostMoved s (pollPass s) :=
  hostMoved_trans (writeReg_moves .t s.step s) (writeReg_moves ..)

theorem hostLocal_moves (op : HostOp) (s : State) : hostMoved s (hostLocal op s) := by
  cases op with
  | li rd imm => exact writeReg_moves ..
  | bit rd rs i => exact writeReg_moves ..
  | or rd rs rt => exact writeReg_moves ..
  | shl rd rs i => exact writeReg_moves ..
  | dec rd => exact writeReg_moves ..
  | bnz rs label =>
    rw [hostLocal]
    split
    · exact hostMoved_refl s
    · exact setHost_moves _ s
  | bz rs label =>
    rw [hostLocal]
    split
    · exact setHost_moves _ s
    · exact hostMoved_refl s
  | write addr width v => exact hostMoved_refl s
  | writeBit rs => exact hostMoved_refl s
  | read addr width rd => exact hostMoved_refl s
  | pseudo p r => exact hostMoved_refl s

/-! ### The command of a written byte -/

/-- ISSUE reads OP and what it writes to STEP, and nothing else of the byte (rules R75, R78). -/
theorem issue_congr {v w : Byte} (ho : stepOp v = stepOp w) (hs : issuedStep v = issuedStep w)
    (s : State) : issue v s = issue w s := by
  simp only [issue, accept, ho, hs]

/-- The command decoded from a byte issues that byte (rules R70, R101). -/
theorem exec_decodeCmd (w : Byte) (s : State) : exec (decodeCmd w) s = .next (issue w s) := by
  have hreset : ∀ w : Byte, w &&& 0x60#8 = 0x00#8 →
      stepOp 0x00#8 = stepOp w ∧ issuedStep 0x00#8 = issuedStep w := by decide
  have hread : ∀ w : Byte, w &&& 0x60#8 = 0x20#8 →
      stepOp 0x20#8 = stepOp w ∧ issuedStep 0x20#8 = issuedStep w := by decide
  have hwrite : ∀ w : Byte, w &&& 0x60#8 = 0x40#8 →
      stepOp (if w.getLsbD 4 then 0x50#8 else 0x40#8) = stepOp w ∧
        issuedStep (if w.getLsbD 4 then 0x50#8 else 0x40#8) = issuedStep w := by decide
  have hrsvd : ∀ w : Byte, w &&& 0x60#8 ≠ 0x00#8 → w &&& 0x60#8 ≠ 0x20#8 → w &&& 0x60#8 ≠ 0x40#8 →
      stepOp 0x60#8 = stepOp w ∧ issuedStep 0x60#8 = issuedStep w := by decide
  unfold decodeCmd
  split_ifs with h0 h1 h2
  · exact congrArg Host.Outcome.next (issue_congr (hreset w h0).1 (hreset w h0).2 s)
  · exact congrArg Host.Outcome.next (issue_congr (hread w h1).1 (hread w h1).2 s)
  · exact congrArg Host.Outcome.next (issue_congr (hwrite w h2).1 (hwrite w h2).2 s)
  · exact congrArg Host.Outcome.next
      (issue_congr (hrsvd w h0 h1 h2).1 (hrsvd w h0 h1 h2).2 s)

/-! ### Everything a Host step can do -/

/-- The lines that issue a command. -/
def HostOp.issues : HostOp → Bool
  | .write _ _ _ => true
  | .writeBit _ => true
  | .pseudo p _ => p != .wait
  | _ => false

/-- A word that a line gives to decode is a written byte, a read's register, or the line's own
pseudo-instruction (rules R56, R80, R83). -/
theorem lineKind_code {op : HostOp} {s : State} {c : Code} (h : lineKind op s = .code c) :
    (op.issues = true ∧ ∃ w, c = .cmd w) ∨ (op.issues = false ∧ ∃ rd, c = .stat rd) ∨
      ∃ p r, op = .pseudo p r ∧ c = .pseudo p r := by
  cases op with
  | write addr width v =>
    rw [lineKind] at h
    split at h
    · cases h; exact .inl ⟨rfl, v, rfl⟩
    · cases h
  | writeBit rs => cases h; exact .inl ⟨rfl, _, rfl⟩
  | read addr width rd =>
    rw [lineKind] at h
    split at h
    · cases h; exact .inr (.inl ⟨rfl, rd, rfl⟩)
    · cases h
  | pseudo p r => cases h; exact .inr (.inr ⟨p, r, rfl, rfl⟩)
  | li => cases h
  | bit => cases h
  | or => cases h
  | shl => cases h
  | dec => cases h
  | bnz => cases h
  | bz => cases h

theorem lineKind_inHost {op : HostOp} {s : State} (h : lineKind op s = .inHost) :
    op.issues = false := by
  cases op with
  | write addr width v => rw [lineKind] at h; split at h <;> cases h
  | writeBit rs => cases h
  | pseudo p r => cases h
  | read => rfl
  | li => rfl
  | bit => rfl
  | or => rfl
  | shl => rfl
  | dec => rfl
  | bnz => rfl
  | bz => rfl

/-- `ow.wait` touches the Host only (rule R114). -/
theorem exec_owWait_moves {rd : Reg} {s u : State} (h : exec (.owWait rd) s = .next u) :
    hostMoved s u := by
  cases h
  split
  · exact hostMoved_trans (pollPass_moves s) (pushLines_moves ..)
  · exact hostMoved_trans (pollPass_moves s) (writeReg_moves ..)

/-- A façade operation issues one command, after the Host's own registers and lines (rule R83). -/
theorem exec_pseudo_issues {p : Pseudo} {r : Reg} {s u : State} (hp : p ≠ .wait)
    (h : exec (decodePseudo p r) s = .next u) : ∃ w v, hostMoved s v ∧ u = issue w v := by
  cases p with
  | wait => exact absurd rfl hp
  | reset => cases h; exact ⟨_, _, pushLines_moves .., rfl⟩
  | wrbyte =>
    cases h
    exact ⟨_, _, hostMoved_trans (writeReg_moves ..) (pushLines_moves ..), rfl⟩
  | rdbyte =>
    cases h
    exact ⟨_, _, hostMoved_trans (writeReg_moves ..) (pushLines_moves ..), rfl⟩

/-- Everything a Host step can do: it touches the Host only, or, for a line that issues, it issues one
byte after that (rules R58, R83, R100). -/
theorem hostStep_cases {op : HostOp} {s u : State} (h : hostStep op s = .next u) :
    (op.issues = false ∧ hostMoved s u) ∨
      (op.issues = true ∧ ∃ w v, hostMoved s v ∧ u = issue w v) := by
  have hin := enterHost_moves s
  obtain ⟨hk, rfl⟩ | ⟨c, i, hk, hd, hx⟩ := hostStep_next h
  · exact .inl ⟨lineKind_inHost hk, hostMoved_trans hin (hostLocal_moves op _)⟩
  · obtain ⟨hop, w, rfl⟩ | ⟨hop, rd, rfl⟩ | ⟨p, r, rfl, rfl⟩ := lineKind_code hk
    · cases hd
      rw [exec_decodeCmd] at hx
      exact .inr ⟨hop, w, _, hin, (Host.Outcome.next.inj hx).symm⟩
    · cases hd
      cases hx
      exact .inl ⟨hop, hostMoved_trans hin (writeReg_moves ..)⟩
    · cases hd
      by_cases hp : p = .wait
      · subst hp
        exact .inl ⟨rfl, hostMoved_trans hin (exec_owWait_moves hx)⟩
      · obtain ⟨w, v, hv, rfl⟩ := exec_pseudo_issues hp hx
        exact .inr ⟨by simpa [HostOp.issues] using hp, w, v, hostMoved_trans hin hv, rfl⟩

/-- No Host step changes TRAPPED, the configuration or the clock. -/
theorem hostStep_keeps {op : HostOp} {s u : State} (h : hostStep op s = .next u) :
    u.trapped = s.trapped ∧ u.cfg = s.cfg ∧ u.now = s.now := by
  obtain ⟨_, _, _, rfl⟩ | ⟨_, w, _, ⟨_, _, rfl⟩, rfl⟩ := hostStep_cases h
  · simp
  · exact issue_keeps w _

/-- Settles O42: a line that issues nothing touches the Host only. -/
theorem hostReadsKeepStep : Obligations.HostReadsKeepStep := by
  intro s u t op hturn hline hwrite hbit hpseudo hstep
  have hop : op.issues = false := by
    cases op with
    | write addr width v => exact absurd rfl (hwrite addr width v)
    | writeBit rs => exact absurd rfl (hbit rs)
    | pseudo p r => simp [HostOp.issues, hpseudo p r rfl]
    | _ => rfl
  have hrun : hostStep op (advanceTo t (settleTie s)) = .next u := by
    obtain ⟨-, ⟨_, hn, -⟩ | ⟨_, hn, -⟩ | ⟨t', op', hn, -, hl, -, -, hrun⟩⟩ := step_cases hstep
    · simp [hturn] at hn
    · simp [hturn] at hn
    · simp only [hturn, Turn.host.injEq, hline, Option.some.injEq] at hn hl
      subst hn hl
      exact hrun
  obtain ⟨-, h, i, rfl⟩ | ⟨hiss, -⟩ := hostStep_cases hrun
  · simp
  · simp [hop] at hiss

/-! ### What an accepted command leaves -/

/-- What `Drive(d)` adds to the Bus is pulls. -/
theorem driveAt_bus (t : Nat) (d : Drive) (s : State) :
    ∃ ps, (driveAt t d s).bus = s.bus.addPulls ps := by
  unfold driveAt noteDrive
  split
  · exact ⟨_, rfl⟩
  · exact ⟨[], by simp [Bus.addPulls]⟩
  · exact ⟨_, rfl⟩
  · exact ⟨[], by simp [Bus.addPulls]⟩

theorem startXfer_bus (p : Byte) (st : Nat) (s : State) :
    ∃ ps, (startXfer p st s).bus = s.bus.addPulls ps := by
  simpa [startXfer] using driveAt_bus st (cellDrive p 0)
    (((s.setTxd p).setXferBusy true).setXferStart (atLevel s.cfg.level st s.xferStart))

theorem accept_devicesIssued (w : Byte) (s : State) :
    devicesIssued (stepOp w) s (accept w s) := by
  by_cases he : s.cfg.engine = .timer
  · simp [devicesIssued, accept_timer w he, noteIssue, Bus.mapResponders]
  · obtain ⟨ps, hps⟩ := startXfer_bus (primePattern (s.setStep (issuedStep w))) s.now
      (noteIssue (stepOp w) (s.setStep (issuedStep w)))
    rw [accept_shift w he, devicesIssued, hps]
    simp [noteIssue, Bus.mapResponders, Bus.addPulls, he]

/-- The pattern that primes a sequence, where its key has a descriptor (rule R171). -/
theorem primePattern_eq {s : State} {c : Code} {p : Byte} (hc : lookupDesc s.cfg s.key 0 = some c)
    (hp : patOf c = some p) : primePattern s = p := by
  simp [primePattern, hc, hp]

/-- The pattern that primes a sequence whose key has no table (rule R171). -/
theorem primePattern_no_table {s : State} (h : lookupTable s.cfg s.key = none) :
    primePattern s = 0xFF#8 := by
  simp [primePattern, lookupDesc, h]

theorem accept_primed (w : Byte) (s : State) : primed s (accept w s) := by
  refine ⟨by simp, by simp, fun he => ?_, fun he => ?_⟩
  · simp [accept_timer w he, reload, primeCounts, nsPerCount]
  · have hkey : (accept w s).key = (s.setStep (issuedStep w)).key := by simp [State.key]
    rw [hkey, accept_shift w he]
    refine ⟨by simp, by simp, by simp, by simp, fun c p hc hp => ?_, fun h => ?_, by simp,
      by simp [tXfer, tBit]⟩
    · simpa using primePattern_eq (s := s.setStep (issuedStep w)) hc hp
    · simpa using primePattern_no_table (s := s.setStep (issuedStep w)) h

/-- Settles O15: the decoded command issues the byte itself, and an accepted byte is written as
`issuedStep` gives it. -/
theorem writtenByteIssues : Obligations.WrittenByteIssues := by
  intro w s hready
  refine ⟨accept w s, rfl, by rw [exec_decodeCmd, issue_ready w hready], ?_, ?_, ?_, ?_, ?_,
    accept_primed w s, accept_devicesIssued w s⟩
  · simp [State.ready]
  · simp only [State.op, accept_step, stepOp_issuedStep]; rfl
  · simp only [State.result, accept_step, stepResult_issuedStep]
    change _ = if stepOp w = opWrite then w.getLsbD 4 else false
    by_cases hop : stepOp w = opWrite <;> simp [hop]
  · simp [State.prog]
  · simp

end Sys2Proof.Machine
end

section
/-! The clock of a step, the timer's counter, and what no step but a block reset clears (rules R32, R35,
R36, R58, R107). -/

namespace Sys2Proof.Machine

/-! ### When a turn is, and where the clock then stands -/

theorem due_untimed {s : State} (t : Nat) (h : s.cfg.level = .untimed) : due s t = s.now := by
  simp [due, h]

/-- A tie's draw does not move a step's time. -/
theorem due_settleTie (s : State) (t : Nat) : due (settleTie s) t = due s t := by
  simp [due]

theorem advanceTo_now_timed {s : State} (t : Nat) (h : s.cfg.level = .timed) :
    (advanceTo t s).now = t := by
  by_cases he : s.cfg.engine = .timer
  · simp [advanceTo_timer h he]
  · simp [advanceTo_shift h he]

/-- The clock reaches the time of a due step, and at both levels stands there. -/
@[simp] theorem advanceTo_now_due (s : State) (t : Nat) :
    (advanceTo (due s t) s).now = due s t := by
  cases hl : s.cfg.level with
  | timed => exact advanceTo_now_timed _ hl
  | untimed => rw [advanceTo_untimed hl, due_untimed t hl]

/-- The agents' turn is no block reset (rule R12). -/
theorem agentTurn_ne_reset (s : State) (t : Nat) : agentTurn s ≠ .reset t := by
  unfold agentTurn
  split
  · exact nofun
  · exact nofun
  · exact nofun
  · split_ifs <;> exact nofun

/-- A block reset moves at its pending time, or at once where that is past (rule R58). -/
theorem nextTurn_reset {s : State} {t : Nat} (h : nextTurn s = .reset t) : ∃ r, t = due s r := by
  have hother : (if s.fault = .none then agentTurn s else .quiescent) ≠ .reset t := by
    split
    · exact agentTurn_ne_reset s t
    · exact nofun
  have hpending : ∀ t', resetTime s = some t' → ∃ r, t' = due s r := by
    intro t' ht'
    unfold resetTime at ht'
    split at ht'
    · cases ht'
    · exact ⟨_, (Option.some.inj ht').symm⟩
  unfold nextTurn at h
  dsimp only at h
  split at h
  · exact absurd h hother
  · rename_i hr _
    cases h
    exact hpending _ hr
  · rename_i hr _
    split at h
    · cases h
      exact hpending _ hr
    · exact absurd h hother

/-- A block reset keeps the configuration, and leaves the clock at the reset's time (rule R36). -/
theorem resetStep_keeps (s : State) (r : Nat) :
    (resetStep (due s r) s).cfg = s.cfg ∧ (resetStep (due s r) s).now = due s r := by
  unfold resetStep
  split <;> simp

/-- A tick keeps the configuration and the clock, and where it traps it sets TRAPPED (rule R112). -/
theorem tickStep_keeps {s u : State} (h : tickStep s = .next u) :
    u.cfg = s.cfg ∧ u.now = s.now ∧ (s.trapped = true → u.trapped = true) := by
  obtain ⟨-, rfl⟩ | ⟨c, i, -, -, hx⟩ := tickStep_next h
  · simp
  · obtain ⟨htrap, hcfg, hnow⟩ := exec_keeps i hx
    simp [htrap, hcfg, hnow]

/-- A step is at a due time, where it leaves the clock. -/
theorem step_at_due {s u : State} (h : step s = .next u) :
    ∃ r, u.cfg = s.cfg ∧ u.now = due s r := by
  obtain ⟨-, ⟨t, hn, rfl⟩ | ⟨t, -, -, -, rfl, hrun⟩ | ⟨t, op, -, -, -, -, rfl, hrun⟩⟩ :=
    step_cases h
  · obtain ⟨r, rfl⟩ := nextTurn_reset hn
    exact ⟨r, resetStep_keeps s r⟩
  · obtain ⟨hcfg, hnow, -⟩ := tickStep_keeps hrun
    rw [← due_settleTie, advanceTo_now_due] at hnow
    exact ⟨_, by simpa using hcfg, by rw [hnow, due_settleTie]⟩
  · obtain ⟨-, hcfg, hnow⟩ := hostStep_keeps hrun
    rw [← due_settleTie, advanceTo_now_due] at hnow
    exact ⟨_, by simpa using hcfg, by rw [hnow, due_settleTie]⟩

/-- Settles O43: every step is at a due time, which is not before the clock, and in Level A is the
clock's. -/
theorem configAndClock : Obligations.ConfigAndClock := by
  intro s u h
  obtain ⟨r, hcfg, hnow⟩ := step_at_due h
  exact ⟨hcfg, hnow ▸ due_le s r, fun hl => hnow.trans (due_untimed r hl)⟩

/-- Settles O12: a tick and a Host step move only where FAULT = NONE, and keep TRAPPED = 1. -/
theorem onlyBlockResetClears : Obligations.OnlyBlockResetClears := by
  intro s u h
  obtain ⟨-, hreset | ⟨t, -, hf, -, -, hrun⟩ | ⟨t, op, -, hf, -, -, -, hrun⟩⟩ := step_cases h
  · exact .inl hreset
  · obtain ⟨-, -, htrap⟩ := tickStep_keeps hrun
    exact .inr ⟨by simpa using htrap, hf⟩
  · obtain ⟨htrap, -, -⟩ := hostStep_keeps hrun
    exact .inr ⟨by simp [htrap], hf⟩

/-! ### The timer's counter -/

/-- Over `k` whole microseconds the counter counts `k` times, at any phase (rule R32). -/
theorem countsBetween_micros (phase lo k : Nat) : countsBetween phase lo (lo + k * 1000) = k := by
  simp only [countsBetween, nsPerCount]
  omega

/-- From its phase on, the counter counts at whole microseconds (rules R32, R145). -/
theorem countsBetween_from_phase {lo k t : Nat} (hlo : lo + k * 1000 ≤ t)
    (hhi : t < lo + (k + 1) * 1000) : countsBetween lo lo t = k := by
  simp only [countsBetween, nsPerCount]
  omega

theorem advanceTo_cnt {s : State} (t : Nat) (hl : s.cfg.level = .timed)
    (he : s.cfg.engine = .timer) :
    (advanceTo t s).cnt = s.cnt + BitVec.ofNat 16 (countsBetween s.cntPhase s.now t) := by
  simp [advanceTo_timer hl he]

/-- Settles O53: CNT adds the counts since the clock's time, and a reload puts its phase there. -/
theorem timerOverflowsAtNextTick : Obligations.TimerOverflowsAtNextTick := by
  intro s hl he
  refine ⟨fun k => ?_, fun d k t _ _ _ => ⟨?_, by simp [reload], fun hlo hhi => ?_⟩⟩
  · rw [advanceTo_cnt _ hl he, countsBetween_micros]
  · simp [atLevel, hl, nsPerCount]
  · have hphase : (reloadTimer d s).cntPhase = s.now := by simp [atLevel, hl]
    rw [advanceTo_cnt t (by simpa using hl) (by simpa using he), hphase, reloadTimer_now,
      countsBetween_from_phase hlo hhi, reloadTimer_cnt, reload, BitVec.ofNat_add]

end Sys2Proof.Machine
end

section
/-! The tick of a descriptor, in one inversion lemma (rules R106, R108, R110, R145, R178), and what it
leaves in STEP. -/

namespace Sys2Proof.Machine

/-! ### What a descriptor performs -/

/-- `Perform(d, h)` of a descriptor, and a shift descriptor's capture rule: its own effect, before
PROG advances (rules R140 to R144, R175 to R177). -/
def perform : Instr → State → State
  | .tDriveLow _ _ => driveLine .low
  | .tRelease _ _ => driveLine .rel
  | .tSampleSet _ _ => performSampleSet
  | .tSampleOr _ _ => performSampleOr
  | .sCapOrLow _ _ => captureOrLow
  | .sCapBit _ bitsel _ => captureBit bitsel
  | _ => id

theorem withResult_self (w : Byte) : withResult (stepResult w) w = w := mkStep_fields w

/-- `u` is `s` with RESULT and DRIVE written; besides those only the record of the slot, the Bus and
the draws may differ. -/
def performed (s u : State) : Prop :=
  ∃ b d sl bus inputs,
    u = ((((s.setStep (withResult b s.step)).setDrive d).setSlot sl).setBus bus).setInputs inputs

theorem performed_refl (s : State) : performed s s :=
  ⟨s.result, s.drive, s.slot, s.bus, s.inputs, by rw [State.result, withResult_self]; rfl⟩

theorem driveLine_performed (d : Drive) (s : State) : performed s (driveLine d s) := by
  obtain ⟨sl, bus, hd⟩ := driveLine_eq d s
  refine ⟨s.result, d, sl, bus, s.inputs, ?_⟩
  rw [State.result, withResult_self]
  exact hd

theorem tookSample_performed (kind : SampleKind) (b : Bool) (s : State) :
    performed s (tookSample kind (setResult b s)) := by
  obtain ⟨sl, inputs, hs⟩ := tookSample_eq kind (setResult b s)
  exact ⟨b, s.drive, sl, s.bus, inputs, hs⟩

theorem noteSamples_performed (kind : SampleKind) (ts : List Nat) (b : Bool) (s : State) :
    performed s (noteSamples kind ts (setResult b s)) := by
  obtain ⟨sl, hs⟩ := noteSamples_eq kind ts (setResult b s)
  exact ⟨b, s.drive, sl, s.bus, s.inputs, hs⟩

/-- Everything a descriptor's own effect can do (rules R29, R30). -/
theorem perform_performed (i : Instr) (s : State) : performed s (perform i s) := by
  cases i with
  | tDriveLow => exact driveLine_performed .low s
  | tRelease => exact driveLine_performed .rel s
  | tSampleSet => exact tookSample_performed ..
  | tSampleOr => exact tookSample_performed ..
  | sCapOrLow => exact noteSamples_performed ..
  | sCapBit => exact noteSamples_performed ..
  | _ => exact performed_refl s

section
variable (i : Instr) (s : State)

@[simp] theorem perform_cfg : (perform i s).cfg = s.cfg := by
  obtain ⟨_, _, _, _, _, h⟩ := perform_performed i s; simp [h]
@[simp] theorem perform_now : (perform i s).now = s.now := by
  obtain ⟨_, _, _, _, _, h⟩ := perform_performed i s; simp [h]
@[simp] theorem perform_armed : (perform i s).armed = s.armed := by
  obtain ⟨_, _, _, _, _, h⟩ := perform_performed i s; simp [h]
@[simp] theorem perform_txd : (perform i s).txd = s.txd := by
  obtain ⟨_, _, _, _, _, h⟩ := perform_performed i s; simp [h]
@[simp] theorem perform_xferBusy : (perform i s).xferBusy = s.xferBusy := by
  obtain ⟨_, _, _, _, _, h⟩ := perform_performed i s; simp [h]
@[simp] theorem perform_trapped : (perform i s).trapped = s.trapped := by
  obtain ⟨_, _, _, _, _, h⟩ := perform_performed i s; simp [h]

/-! A descriptor's own effect leaves READY, OP and PROG (rules R25, R29). -/

@[simp] theorem stepReady_perform : stepReady (perform i s).step = stepReady s.step := by
  obtain ⟨_, _, _, _, _, h⟩ := perform_performed i s; simp [h]
@[simp] theorem stepOp_perform : stepOp (perform i s).step = stepOp s.step := by
  obtain ⟨_, _, _, _, _, h⟩ := perform_performed i s; simp [h]
@[simp] theorem stepProg_perform : stepProg (perform i s).step = stepProg s.step := by
  obtain ⟨_, _, _, _, _, h⟩ := perform_performed i s; simp [h]

end

/-- A descriptor that does not write RESULT leaves STEP (rule R29). -/
theorem perform_step {i : Instr} (s : State) (h : writesResult i = false) :
    (perform i s).step = s.step := by
  cases i with
  | tSampleSet => cases h
  | tSampleOr => cases h
  | sCapOrLow => cases h
  | sCapBit => cases h
  | tDriveLow => exact driveLine_step s .low
  | tRelease => exact driveLine_step s .rel
  | _ => rfl

/-! ### What a tick does with the descriptor -/

/-- What rule R108 does after the descriptor `i` has been performed: PROG advances, and then the
terminal step, the timer's reload, or the next transfer. -/
def descriptorTicked (i : Instr) (s u : State) : Prop :=
  (isTerminal i = true ∧ u = terminal (advanceProg (perform i s))) ∨
  (isTerminal i = false ∧ s.cfg.engine = .timer ∧
    ∃ d, u = reloadTimer d (advanceProg (perform i s))) ∨
  (isTerminal i = false ∧ s.cfg.engine ≠ .timer ∧ ∃ c p,
    fetchDesc (advanceProg (perform i s)) = some c ∧ patOf c = some p ∧
      u = startXfer p s.now (advanceProg (perform i s)))

theorem descriptorTicked_of_runTimer (i : Instr) {d : BitVec 16} {s u : State}
    (h : runTimer (perform i) d (isTerminal i) s = .next u) : descriptorTicked i s u := by
  obtain ⟨he, -, rfl⟩ := runTimer_next h
  cases ht : isTerminal i with
  | true => exact .inl ⟨ht, rfl⟩
  | false => exact .inr (.inl ⟨ht, he, _, rfl⟩)

theorem descriptorTicked_of_runShift (i : Instr) {s u : State}
    (h : runShift (perform i) (isTerminal i) s = .next u) : descriptorTicked i s u := by
  obtain ⟨he, ⟨ht, rfl⟩ | ⟨ht, hcont⟩⟩ := runShift_next h
  · exact .inl ⟨ht, rfl⟩
  · obtain ⟨c, p, hc, hp, rfl⟩ := continueShift_next hcont
    exact .inr (.inr ⟨ht, he, c, p, hc, hp, by simp⟩)

theorem exec_legalDesc {e : Engine} {c : Code} {i : Instr} {s u : State}
    (hd : legalDesc e c = some i) (h : exec i s = .next u) : descriptorTicked i s u := by
  obtain ⟨-, hwf, ⟨-, w, -, hw⟩ | ⟨-, w, -, hw⟩⟩ := legalDesc_spec hd
  · obtain ⟨d, t, -, rfl | rfl | rfl | rfl | rfl⟩ := decodeTimer_forms hw hwf <;>
      exact descriptorTicked_of_runTimer _ h
  · obtain ⟨p, t, -, rfl | rfl | ⟨b, rfl⟩⟩ := decodeShift_forms hw hwf <;>
      exact descriptorTicked_of_runShift _ h

/-- The descriptor `c` that a tick of a legal configuration fetches: its instruction `i`, and the
legal table it is the entry PROG of. -/
structure Fetched (s : State) (c : Code) (i : Instr) (table : List Code) (is : List Instr) :
    Prop where
  lookup : lookupTable s.cfg s.key = some table
  legal : LegalTable s.cfg s.key table is
  instr : is[s.prog.toNat]? = some i
  desc : legalDesc s.cfg.engine c = some i
  length : is.length = table.length

/-- Everything a tick of a legal configuration can do: it traps, or it performs the descriptor it
fetches (rules R106, R108, R112). -/
theorem tickStep_cases {s u : State} (hl : legalConfig s.cfg = true) (h : tickStep s = .next u) :
    (fetchDesc (enterTick s) = none ∧ u = trap (enterTick s)) ∨
      ∃ c i table is, fetchDesc (enterTick s) = some c ∧ Fetched (enterTick s) c i table is ∧
        descriptorTicked i (enterTick s) u := by
  obtain htrap | ⟨c, i, hf, hdec, hx⟩ := tickStep_next h
  · exact .inl htrap
  · obtain ⟨table, is, j, hlook, htab, hj, -, hd, hlen⟩ :=
      fetchDesc_legal (by rwa [enterTick_cfg]) hf
    obtain rfl : j = i := by
      have hdec' := (legalDesc_spec hd).1
      rw [hdec] at hdec'
      exact (Except.ok.inj hdec').symm
    exact .inr ⟨c, j, table, is, hf, ⟨hlook, htab, hj, hd, hlen⟩, exec_legalDesc hd hx⟩

/-- The tick that `step` takes runs from the state that the clock has reached. -/
theorem step_tick {s u : State} {t : Nat} (hn : nextTurn s = .tick t) (h : step s = .next u) :
    legalConfig s.cfg = true ∧ tickStep (advanceTo t (settleTie s)) = .next u := by
  obtain ⟨hl, ⟨_, hn', -⟩ | ⟨t', hn', -, -, -, hrun⟩ | ⟨_, _, hn', -⟩⟩ := step_cases h
  · simp [hn] at hn'
  · simp only [hn, Turn.tick.injEq] at hn'
    subst hn'
    exact ⟨hl, hrun⟩
  · simp [hn] at hn'

/-! ### What a tick leaves in STEP -/

/-- Of OP, PROG, READY and ARMED, a performed descriptor keeps OP and advances PROG, and it sets READY
only as it disarms (rules R23, R25, R110). -/
theorem descriptorTicked_step {i : Instr} {s u : State} (h : descriptorTicked i s u) :
    u.op = s.op ∧ u.prog = s.prog + 1#4 ∧ u.trapped = s.trapped ∧
      (u.ready = true → s.ready = true ∨ u.armed = false) := by
  obtain ⟨-, rfl⟩ | ⟨-, -, d, rfl⟩ | ⟨-, -, c, p, -, -, rfl⟩ := h <;>
    simp [State.op, State.prog, State.ready]

/-- RESULT after a performed descriptor is what its own effect has left. -/
theorem descriptorTicked_result {i : Instr} {s u : State} (h : descriptorTicked i s u) :
    u.result = (perform i s).result := by
  obtain ⟨-, rfl⟩ | ⟨-, -, d, rfl⟩ | ⟨-, -, c, p, -, -, rfl⟩ := h <;> simp [State.result]

/-- No descriptor of a write table writes RESULT (rule R117 condition 9). -/
theorem Fetched.writesResult_eq_false {s : State} {c : Code} {i : Instr} {table : List Code}
    {is : List Instr} (hf : Fetched s c i table is) (hop : s.op = opWrite) :
    writesResult i = false := by
  have hany := hf.legal.wr (keyOf_write_iff.mpr hop)
  rw [List.any_eq_false] at hany
  simpa using hany i (List.mem_of_getElem? hf.instr)

/-- Settles O48: a tick traps, or performs one descriptor. -/
theorem tickAdvancesProg : Obligations.TickAdvancesProg := by
  intro s u t hn h
  obtain ⟨hl, hrun⟩ := step_tick hn h
  obtain ⟨-, rfl⟩ | ⟨c, i, table, is, -, -, htick⟩ := tickStep_cases (by simpa using hl) hrun
  · simp [State.op]
  · obtain ⟨hop, hprog, htrap, hready⟩ := descriptorTicked_step htick
    simp only [State.op, State.prog, State.ready, enterTick_step, enterTick_trapped,
      advanceTo_step, advanceTo_trapped, settleTie_step, settleTie_trapped] at hop hprog htrap hready
    exact ⟨hop, .inr ⟨hprog, htrap, hready⟩⟩

/-- Settles O47: no descriptor of a write table writes RESULT, and a trap leaves STEP. -/
theorem writeKeepsResult : Obligations.WriteKeepsResult := by
  intro s u t hn hop h
  obtain ⟨hl, hrun⟩ := step_tick hn h
  obtain ⟨-, rfl⟩ | ⟨c, i, table, is, -, hf, htick⟩ := tickStep_cases (by simpa using hl) hrun
  · simp [State.result]
  · have hw := hf.writesResult_eq_false (by simpa [State.op, opWrite] using hop)
    rw [descriptorTicked_result htick, State.result, perform_step _ hw]
    simp [State.result]

end Sys2Proof.Machine
end

section
/-! The machine's invariant (rule R39): it holds at reset, every step keeps it, and the five clauses
of R39 follow from it. A Host step keeps it because the Host's own fields are not in it, and an issue
because the sequence it starts is at index 0. A tick keeps it because a legal table's last descriptor,
and no other, is terminal and leaves the line released (rule R117). -/

namespace Sys2Proof.Machine

/-! ### The invariant, case by case -/

/-- With READY = 1 the machine is at rest. -/
theorem invariant_of_ready {s : State} (hr : s.ready = true) (ha : s.armed = false)
    (ht : s.trapped = false) (hd : s.drive = .rel) (hb : s.xferBusy = false)
    (hp : s.step = stepReset ∨ stepCount s.cfg s.key = some s.prog.toNat) : Invariant s :=
  fun _ => ⟨fun _ => ⟨ha, ht, hd, hb, hp⟩, by simp [ht], by simp [hr]⟩

/-- With TRAPPED = 1 nothing is armed, and the key has no table. -/
theorem invariant_of_trapped {s : State} (hr : s.ready = false) (ht : s.trapped = true)
    (ha : s.armed = false) (hn : stepCount s.cfg s.key = none) : Invariant s :=
  fun _ => ⟨by simp [hr], fun _ => ⟨hr, ha, hn⟩, by simp [ht]⟩

/-- A sequence in flight has a tick armed, at an index of its table. -/
theorem invariant_of_inFlight {s : State} (hr : s.ready = false) (ht : s.trapped = false)
    (ha : s.armed = true) (hb : backendInStep s)
    (hp : ∀ n, stepCount s.cfg s.key = some n → s.prog.toNat < n) : Invariant s :=
  fun _ => ⟨by simp [hr], by simp [ht], fun _ _ => ⟨ha, hb, hp⟩⟩

/-- The invariant of a faulted state is vacuous: nothing moves there but a block reset. -/
theorem invariant_of_fault {s : State} (hf : s.fault ≠ .none) : Invariant s :=
  fun h => absurd h hf

/-- An armed tick is a sequence's in flight. -/
theorem Invariant.inFlight {s : State} (hi : Invariant s) (hf : s.fault = .none)
    (ha : s.armed = true) : s.ready = false ∧ s.trapped = false ∧ backendInStep s ∧
      ∀ n, stepCount s.cfg s.key = some n → s.prog.toNat < n := by
  obtain ⟨hready, htrapped, hrun⟩ := hi hf
  have hr : s.ready = false := by
    cases hr : s.ready with
    | false => rfl
    | true => obtain ⟨ha', -⟩ := hready hr; simp [ha] at ha'
  have ht : s.trapped = false := by
    cases ht : s.trapped with
    | false => rfl
    | true => obtain ⟨-, ha', -⟩ := htrapped ht; simp [ha] at ha'
  obtain ⟨-, hb, hp⟩ := hrun hr ht
  exact ⟨hr, ht, hb, hp⟩

/-- The Host and the draws are not in the invariant. -/
theorem invariant_hostMoved {s u : State} (h : hostMoved s u) : Invariant u ↔ Invariant s := by
  obtain ⟨_, _, rfl⟩ := h
  exact Iff.rfl

/-! ### Reset -/

theorem stepReady_stepReset : stepReady stepReset = true := by decide

/-- A block reset leaves the invariant, from any state (rule R250). -/
theorem invariant_blockReset (s : State) : Invariant (blockReset s) :=
  invariant_of_ready (by simp [State.ready, stepReady_stepReset]) (by simp) (by simp) (by simp)
    (by simp) (.inl (by simp))

/-- Settles O45: at reset STEP is the reset value, and the line is released. -/
theorem invariantAtReset : Obligations.InvariantAtReset :=
  have hwith : ∀ cfg, Invariant (State.resetWith cfg) := fun _ =>
    invariant_of_ready stepReady_stepReset rfl rfl rfl rfl (.inl rfl)
  ⟨hwith _, hwith⟩

/-- Settles O10: the values that block reset writes are those of the state a run starts from. -/
theorem blockResetValues : Obligations.BlockResetValues := by
  intro s u hu
  have hvalues : u.step = 0x80#8 ∧ u.drive = .rel ∧ u.armed = false ∧ u.xferBusy = false ∧
      u.trapped = false ∧ u.fault = .none := by
    simp only [List.mem_cons, List.not_mem_nil, or_false] at hu
    obtain rfl | rfl := hu
    · exact ⟨rfl, rfl, rfl, rfl, rfl, rfl⟩
    · simp [stepReset]
  obtain ⟨hstep, hrest⟩ := hvalues
  refine ⟨hstep, ?_, ?_, ?_, ?_, hrest⟩
  · rw [State.ready, hstep]; rfl
  · rw [State.op, hstep]; rfl
  · rw [State.result, hstep]; rfl
  · rw [State.prog, hstep]; rfl

/-! ### The five clauses of rule R39 -/

/-- Settles O46: the step count bounds PROG in each of the invariant's three cases. -/
theorem invariantGivesR39 : Obligations.InvariantGivesR39 := by
  intro s hi hf
  obtain ⟨hready, htrapped, hrun⟩ := hi hf
  refine ⟨fun hr => ?_, fun ht => ?_, fun hr ht => (hrun hr ht).1, fun n hn => ?_, fun hr => ?_⟩
  · obtain ⟨ha, ht, -⟩ := hready hr
    exact ⟨ha, ht⟩
  · obtain ⟨hr, ha, -⟩ := htrapped ht
    exact ⟨hr, ha⟩
  · cases hr : s.ready with
    | true =>
      obtain ⟨-, -, -, -, hstep | hcount⟩ := hready hr
      · have hprog : s.prog = 0#4 := by rw [State.prog, hstep]; rfl
        exact ⟨by simp [hprog], fun _ => .inl hstep⟩
      · have hprog : s.prog.toNat = n := Option.some.inj (hcount.symm.trans hn)
        exact ⟨hprog.le, fun _ => .inr hprog⟩
    | false =>
      cases ht : s.trapped with
      | true => obtain ⟨-, -, hnone⟩ := htrapped ht; simp [hn] at hnone
      | false =>
        obtain ⟨-, -, hlt⟩ := hrun hr ht
        exact ⟨(hlt n hn).le, by simp⟩
  · obtain ⟨-, -, hd, -⟩ := hready hr
    exact hd

/-! ### STEP's fields after the operations that do not write them -/

@[simp] theorem key_terminal (s : State) : (terminal s).key = s.key := by simp [State.key]
@[simp] theorem prog_terminal (s : State) : (terminal s).prog = s.prog := by simp [State.prog]
@[simp] theorem key_reloadTimer (d : Nat) (s : State) : (reloadTimer d s).key = s.key := by
  simp [State.key]
@[simp] theorem prog_reloadTimer (d : Nat) (s : State) : (reloadTimer d s).prog = s.prog := by
  simp [State.prog]
@[simp] theorem key_startXfer (p : Byte) (st : Nat) (s : State) : (startXfer p st s).key = s.key := by
  simp [State.key]
@[simp] theorem prog_startXfer (p : Byte) (st : Nat) (s : State) :
    (startXfer p st s).prog = s.prog := by simp [State.prog]
@[simp] theorem key_advanceTo (t : Nat) (s : State) : (advanceTo t s).key = s.key := by
  simp [State.key]
@[simp] theorem prog_advanceTo (t : Nat) (s : State) : (advanceTo t s).prog = s.prog := by
  simp [State.prog]
@[simp] theorem ready_advanceTo (t : Nat) (s : State) : (advanceTo t s).ready = s.ready := by
  simp [State.ready]

/-! ### The backend while the clock advances -/

theorem backendInStep_timer {s : State} (he : s.cfg.engine = .timer) :
    backendInStep s ↔ s.xferBusy = false ∧ ∀ table, lookupTable s.cfg s.key = some table →
      s.drive = driveOfBit (releasedAfter true (decodedUpTo table s.prog.toNat)) := by
  simp only [backendInStep, he]

theorem backendInStep_shift {s : State} (he : s.cfg.engine ≠ .timer) :
    backendInStep s ↔ (∀ c, fetchDesc s = some c → patOf c = some s.txd) ∧
      (s.xferBusy = false → s.drive = cellDrive s.txd 7) ∧
      (s.xferBusy = true → s.cfg.level = .timed → xferRuns s) := by
  unfold backendInStep
  split
  · exact absurd ‹_› he
  · exact Iff.rfl

@[simp] theorem fetchDesc_advanceTo (t : Nat) (s : State) :
    fetchDesc (advanceTo t s) = fetchDesc s := by
  simp [fetchDesc]

/-- Without a transfer the clock's advance leaves the line and the peripheral. -/
theorem advanceTo_idle {s : State} (t : Nat) (hb : s.xferBusy = false) :
    (advanceTo t s).drive = s.drive ∧ (advanceTo t s).xferBusy = false := by
  unfold advanceTo
  split
  · exact ⟨rfl, hb⟩
  · split <;> simp [runXfer, hb]

/-- A transfer in flight goes on as rule R173 says, or has completed with its last bit driven. -/
theorem advanceTo_xferRuns {s : State} {t : Nat} (hl : s.cfg.level = .timed)
    (he : s.cfg.engine ≠ .timer) (hb : s.xferBusy = true) (hx : xferRuns s) (ht : s.now ≤ t) :
    ((advanceTo t s).xferBusy = false → (advanceTo t s).drive = cellDrive s.txd 7) ∧
      ((advanceTo t s).xferBusy = true → xferRuns (advanceTo t s)) := by
  obtain ⟨hbusy, hdrive⟩ := runXfer_spec hb hx ht
  obtain ⟨hstart, -, hnext, -⟩ := hx
  have hcells : tXfer = 72000 := rfl
  have hcell : tBit = 9000 := rfl
  rw [advanceTo_shift hl he]
  refine ⟨fun hdone => ?_, fun hruns => ?_⟩
  · simp only [State.setNow_xferBusy, hbusy, decide_eq_false_iff_not, hcells] at hdone
    have hlast : min 7 ((t - s.xferStart) / 9000) = 7 := by omega
    rw [State.setNow_drive, hdrive, hlast]
  · simp only [State.setNow_xferBusy, hbusy, decide_eq_true_eq, hcells] at hruns
    have hinside : min 7 ((t - s.xferStart) / 9000) = (t - s.xferStart) / 9000 := by omega
    refine ⟨?_, ?_, ?_, ?_⟩
    · simpa using hstart.trans ht
    · simpa [hcells] using hruns
    · simpa using hnext
    · simp [hdrive, hinside, hcell]

/-- The backend stays in step with the sequence while the clock advances (rules R32, R173). -/
theorem backendInStep_advanceTo {s : State} {t : Nat} (hb : backendInStep s) (ht : s.now ≤ t) :
    backendInStep (advanceTo t s) := by
  by_cases he : s.cfg.engine = .timer
  · rw [backendInStep_timer he] at hb
    rw [backendInStep_timer (by simpa using he)]
    obtain ⟨hbusy, hdrive⟩ := hb
    obtain ⟨hdrive', hbusy'⟩ := advanceTo_idle t hbusy
    exact ⟨hbusy', by simpa [hdrive'] using hdrive⟩
  · rw [backendInStep_shift he] at hb
    rw [backendInStep_shift (by simpa using he)]
    obtain ⟨hpat, hdone, hruns⟩ := hb
    refine ⟨by simpa using hpat, ?_⟩
    rw [advanceTo_txd, advanceTo_cfg]
    cases hbusy : s.xferBusy with
    | false =>
      obtain ⟨hdrive', hbusy'⟩ := advanceTo_idle t hbusy
      exact ⟨fun _ => hdrive'.trans (hdone hbusy), by simp [hbusy']⟩
    | true =>
      cases hl : s.cfg.level with
      | timed =>
        obtain ⟨hdone', hruns'⟩ := advanceTo_xferRuns hl he hbusy (hruns hbusy hl) ht
        exact ⟨hdone', fun hbusy' _ => hruns' hbusy'⟩
      | untimed => simp [advanceTo_untimed hl, hbusy]

/-- The clock's advance keeps the invariant. -/
theorem invariant_advanceTo {s : State} {t : Nat} (hi : Invariant s) (ht : s.now ≤ t) :
    Invariant (advanceTo t s) := by
  intro hf
  obtain ⟨hready, htrapped, hrun⟩ := hi (by simpa using hf)
  simp only [ready_advanceTo, advanceTo_armed, advanceTo_trapped, advanceTo_step, advanceTo_cfg,
    key_advanceTo, prog_advanceTo]
  refine ⟨fun hr => ?_, htrapped, fun hr hnt => ?_⟩
  · obtain ⟨ha, hnt, hd, hb, hp⟩ := hready hr
    obtain ⟨hd', hb'⟩ := advanceTo_idle t hb
    exact ⟨ha, hnt, hd'.trans hd, hb', hp⟩
  · obtain ⟨ha, hb, hp⟩ := hrun hr hnt
    exact ⟨ha, backendInStep_advanceTo hb ht, hp⟩

/-! ### The Host's step -/

/-- Each table that a key of a legal configuration selects has a first descriptor (rule R117
condition 2). -/
theorem legalConfig_first {cfg : Config} {key : Key} {table : List Code}
    (hl : legalConfig cfg = true) (ht : lookupTable cfg key = some table) : 0 < table.length := by
  obtain ⟨is, htab⟩ := legalConfig_table hl ht
  obtain ⟨hlen, -⟩ := mapM_some htab.mapm
  have hpos := htab.pos
  omega

/-- A descriptor that a SHIFT_* engine fetches has a pattern (rule R117 condition 4). -/
theorem fetchDesc_patOf {s : State} {c : Code} (hl : legalConfig s.cfg = true)
    (he : s.cfg.engine ≠ .timer) (hf : fetchDesc s = some c) : ∃ p, patOf c = some p := by
  obtain ⟨_, _, i, -, -, -, -, hd, -⟩ := fetchDesc_legal hl hf
  obtain ⟨-, -, ⟨htimer, -⟩ | ⟨-, w, rfl, -⟩⟩ := legalDesc_spec hd
  · exact absurd htimer he
  · exact ⟨_, rfl⟩

/-- `StartXfer(p)` at this instant puts a SHIFT_* engine in step with the descriptor of pattern `p`
(rules R172, R173). -/
theorem backendInStep_startXfer {s : State} {p : Byte} (he : s.cfg.engine ≠ .timer)
    (hp : ∀ c, fetchDesc s = some c → patOf c = some p) :
    backendInStep (startXfer p s.now s) := by
  have hfetch : fetchDesc (startXfer p s.now s) = fetchDesc s := by
    simp [fetchDesc, State.key, State.prog]
  rw [backendInStep_shift (by simpa using he)]
  refine ⟨by simpa [hfetch] using hp, by simp, fun _ hl => ?_⟩
  have hl' : s.cfg.level = .timed := by simpa using hl
  simp [xferRuns, atLevel, hl', tXfer, tBit]

/-- An accepted command puts the backend in step with index 0 of its table (rules R146, R171). -/
theorem backendInStep_accept {s : State} (w : Byte) (hl : legalConfig s.cfg = true)
    (hd : s.drive = .rel) (hb : s.xferBusy = false) : backendInStep (accept w s) := by
  by_cases he : s.cfg.engine = .timer
  · rw [backendInStep_timer (by simpa using he), accept_timer w he]
    refine ⟨by simpa using hb, fun table _ => ?_⟩
    simp [State.prog, decodedUpTo, releasedAfter, driveOfBit, hd]
  · rw [accept_shift w he]
    refine backendInStep_startXfer (by simpa using he) fun c hc => ?_
    obtain ⟨p, hp⟩ := fetchDesc_patOf (by simpa using hl) (by simpa using he) hc
    have hfirst : lookupDesc s.cfg (s.setStep (issuedStep w)).key 0 = some c := by
      simpa [fetchDesc, State.key, State.prog] using hc
    rw [hp, primePattern_eq (s := s.setStep (issuedStep w)) hfirst hp]

/-- A command keeps the invariant: it starts a sequence at index 0, or it raises ISSUE_BUSY. -/
theorem invariant_issue {s : State} (w : Byte) (hl : legalConfig s.cfg = true)
    (hi : Invariant s) (hf : s.fault = .none) : Invariant (issue w s) := by
  cases hr : s.ready with
  | false =>
    rw [issue_busy w hr]
    exact invariant_of_fault (by simp)
  | true =>
    obtain ⟨hready, -, -⟩ := hi hf
    obtain ⟨-, ht, hd, hb, -⟩ := hready hr
    rw [issue_ready w hr]
    refine invariant_of_inFlight (by simp [State.ready]) (by simpa using ht) (by simp)
      (backendInStep_accept w hl hd hb) fun n hn => ?_
    obtain ⟨table, htab, rfl⟩ := Option.map_eq_some_iff.mp hn
    simpa [State.prog] using legalConfig_first hl (by simpa using htab)

/-- A Host step keeps the invariant. -/
theorem invariant_hostStep {op : HostOp} {s u : State} (hl : legalConfig s.cfg = true)
    (hi : Invariant s) (hf : s.fault = .none) (h : hostStep op s = .next u) : Invariant u := by
  obtain ⟨-, hm⟩ | ⟨-, w, v, hm, rfl⟩ := hostStep_cases h
  · exact (invariant_hostMoved hm).mpr hi
  · have hv := (invariant_hostMoved hm).mpr hi
    obtain ⟨_, _, rfl⟩ := hm
    exact invariant_issue w hl hv hf

/-! ### The tick -/

/-- A step count is the length of the table that the key selects. -/
theorem stepCount_of_lookup {cfg : Config} {key : Key} {table : List Code}
    (h : lookupTable cfg key = some table) : stepCount cfg key = some table.length := by
  simp [stepCount, h]

/-- Below the step count a descriptor is fetched, so where none is, the key has no table (rule
R106). -/
theorem stepCount_of_fetchDesc_none {s : State} (h : fetchDesc s = none)
    (hp : ∀ n, stepCount s.cfg s.key = some n → s.prog.toNat < n) :
    stepCount s.cfg s.key = none := by
  cases ht : lookupTable s.cfg s.key with
  | none => simp [stepCount, ht]
  | some table =>
    have hlt := hp _ (stepCount_of_lookup ht)
    simp [fetchDesc, lookupDesc, ht] at h
    omega

/-- A fetched descriptor is below the step count (rule R106). -/
theorem fetchDesc_lt_stepCount {s : State} {c : Code} {n : Nat} (h : fetchDesc s = some c)
    (hn : stepCount s.cfg s.key = some n) : s.prog.toNat < n := by
  obtain ⟨table, ht, rfl⟩ := Option.map_eq_some_iff.mp hn
  simp only [fetchDesc, lookupDesc, ht] at h
  exact (List.getElem?_eq_some_iff.mp h).1

/-- At the handler instant a transfer has completed, and the backend is in step with the descriptor
at PROG (rules R31, R109, R227). -/
theorem enterTick_backendInStep {s : State} {r : Nat} (hb : backendInStep s) (hr : s.nextT ≤ r) :
    backendInStep (enterTick (advanceTo (due s r) s)) ∧
      (enterTick (advanceTo (due s r) s)).xferBusy = false := by
  have hadv := backendInStep_advanceTo hb (due_le s r)
  by_cases he : s.cfg.engine = .timer
  · have hbusy := ((backendInStep_timer (by simpa using he)).mp hadv).1
    rw [enterTick_timer (by simpa using he)]
    exact ⟨hadv, by simpa using hbusy⟩
  · obtain ⟨hpat, -, hruns⟩ := (backendInStep_shift (by simpa using he)).mp hadv
    cases hl : s.cfg.level with
    | timed =>
      have hbusy : (advanceTo (due s r) s).xferBusy = false := by
        by_contra hbusy
        obtain ⟨-, hend, hnext, -⟩ := hruns (by simpa using hbusy) (by simpa using hl)
        have hdue : r ≤ due s r := by simp [due, hl]
        simp only [advanceTo_now_due, advanceTo_xferStart, advanceTo_nextT] at hend hnext
        omega
      rw [enterTick_timed (by simpa using hl)]
      exact ⟨hadv, by simpa using hbusy⟩
    | untimed =>
      rw [enterTick_untimed_shift (by simpa using hl) (by simpa using he),
        backendInStep_shift (by simpa using he)]
      exact ⟨⟨by simpa [fetchDesc, State.key, State.prog] using hpat, by simp, by simp⟩, by simp⟩

/-- A performed descriptor keeps the key: the key reads RESULT for OP = WRITE only, whose tables do
not write it (rules R74, R117). -/
theorem Fetched.key_perform {s : State} {c : Code} {i : Instr} {table : List Code}
    {is : List Instr} (hf : Fetched s c i table is) :
    keyOf (perform i s).step = keyOf s.step := by
  by_cases hop : s.op = opWrite
  · rw [perform_step s (hf.writesResult_eq_false hop)]
  · exact keyOf_congr_op (by simp) hop

/-- A timer descriptor leaves the line where DRIVE_LOW and RELEASE say (rules R140 to R144). -/
theorem drive_perform_released {s : State} {c : Code} {i : Instr} {released : Bool}
    (hd : legalDesc .timer c = some i) (hs : s.drive = driveOfBit released) :
    (perform i s).drive = driveOfBit (releasedAfter released [i]) := by
  obtain ⟨-, hwf, ⟨-, w, -, hw⟩ | ⟨he, -⟩⟩ := legalDesc_spec hd
  · obtain ⟨d, t, -, rfl | rfl | rfl | rfl | rfl⟩ := decodeTimer_forms hw hwf
    · exact hs
    · exact driveLine_drive s .low
    · exact driveLine_drive s .rel
    · simpa [perform, performSampleSet, releasedAfter] using hs
    · simpa [perform, performSampleOr, releasedAfter] using hs
  · exact absurd rfl he

/-- A shift descriptor leaves the line to its transfer (rule R173). -/
theorem drive_perform_shift {e : Engine} {s : State} {c : Code} {i : Instr}
    (hd : legalDesc e c = some i) (he : e ≠ .timer) : (perform i s).drive = s.drive := by
  obtain ⟨-, hwf, ⟨htimer, -⟩ | ⟨-, w, -, hw⟩⟩ := legalDesc_spec hd
  · exact absurd htimer he
  · obtain ⟨p, t, -, rfl | rfl | ⟨b, rfl⟩⟩ := decodeShift_forms hw hwf
    · rfl
    · simp [perform, captureOrLow]
    · simp [perform, captureBit]

/-- The last descriptor's pattern decides how a shift table ends (rule R117 condition 7). -/
theorem lastPatReleases_eq {e : Engine} {c : Code} {i : Instr} {p : Byte} {is : List Instr}
    (hd : legalDesc e c = some i) (he : e ≠ .timer) (hp : patOf c = some p)
    (hlast : is.getLast? = some i) : lastPatReleases is = p.getLsbD 0 := by
  obtain ⟨-, hwf, ⟨htimer, -⟩ | ⟨-, w, rfl, hw⟩⟩ := legalDesc_spec hd
  · exact absurd htimer he
  · obtain ⟨q, t, hq, hi⟩ := decodeShift_forms hw hwf
    obtain rfl : q = p := Option.some.inj (hq.symm.trans hp)
    obtain rfl | rfl | ⟨b, rfl⟩ := hi <;> simp only [lastPatReleases, hlast]

section
variable {s : State} {c : Code} {i : Instr} {table : List Code} {is : List Instr}

/-- The fetched index is one of the table's. -/
theorem Fetched.prog_lt (hf : Fetched s c i table is) : s.prog.toNat < is.length :=
  (List.getElem?_eq_some_iff.mp hf.instr).1

/-- PROG does not wrap in a legal table (rules R28, R117 condition 2). -/
theorem Fetched.prog_succ (hf : Fetched s c i table is) :
    (s.prog + 1#4).toNat = s.prog.toNat + 1 :=
  stepProg_succ (hf.prog_lt.trans_le hf.legal.le)

theorem Fetched.isTerminal_iff (hf : Fetched s c i table is) :
    isTerminal i = true ↔ s.prog.toNat + 1 = is.length := by
  rw [onlyLastTerminal_at hf.legal.last _ _ hf.instr, decide_eq_true_iff]

/-- On TIMER the line is, after the descriptor, where the table's descriptors up to it say. -/
theorem Fetched.drive_timer (hf : Fetched s c i table is) (he : s.cfg.engine = .timer)
    (hb : backendInStep s) : (perform i s).drive =
      driveOfBit (releasedAfter true (decodedUpTo table (s.prog.toNat + 1))) := by
  have hdrive := ((backendInStep_timer he).mp hb).2 table hf.lookup
  have htake : is.take (s.prog.toNat + 1) = is.take s.prog.toNat ++ [i] := by
    simp [List.take_add_one, hf.instr]
  rw [decodedUpTo_eq hf.legal.mapm] at hdrive ⊢
  rw [htake, releasedAfter_append]
  exact drive_perform_released (he ▸ hf.desc) hdrive

/-- The terminal descriptor leaves the line released (rule R117 conditions 6 and 7). -/
theorem Fetched.drive_terminal (hf : Fetched s c i table is) (hfetch : fetchDesc s = some c)
    (hlast : s.prog.toNat + 1 = is.length) (hb : backendInStep s) (hbusy : s.xferBusy = false) :
    (perform i s).drive = .rel := by
  have hends := hf.legal.rel
  by_cases he : s.cfg.engine = .timer
  · have hreleased : releasedAfter true is = true := by simpa [endsReleased, he] using hends
    rw [hf.drive_timer he hb, decodedUpTo_eq hf.legal.mapm, hlast, List.take_length, hreleased]
    rfl
  · obtain ⟨hpat, hdone, -⟩ := (backendInStep_shift he).mp hb
    have hget : is.getLast? = some i := by
      rw [List.getLast?_eq_getElem?, ← hlast, Nat.add_sub_cancel, hf.instr]
    have hlow : s.txd.getLsbD 0 = true := by
      rw [← lastPatReleases_eq hf.desc he (hpat c hfetch) hget]
      cases hc : s.cfg.engine with
      | timer => exact absurd hc he
      | shiftIrq => simpa [endsReleased, hc] using hends
      | shiftPoll => simpa [endsReleased, hc] using hends
    rw [drive_perform_shift hf.desc he, hdone hbusy]
    simp only [cellDrive, Nat.sub_self, hlow]
    rfl

theorem Fetched.stepCount_eq (hf : Fetched s c i table is) :
    stepCount s.cfg s.key = some is.length :=
  hf.length ▸ stepCount_of_lookup hf.lookup

/-- After PROG has advanced the key is as before. -/
theorem Fetched.key_advanced (hf : Fetched s c i table is) :
    (advanceProg (perform i s)).key = s.key := by
  simpa [State.key] using hf.key_perform

theorem Fetched.prog_advanced (hf : Fetched s c i table is) :
    (advanceProg (perform i s)).prog.toNat = s.prog.toNat + 1 := by
  simpa [State.prog] using hf.prog_succ

/-- The terminal step keeps the invariant: the sequence is at rest, with PROG its step count. -/
theorem invariant_terminal (hf : Fetched s c i table is) (hfetch : fetchDesc s = some c)
    (ht : s.trapped = false) (hb : backendInStep s) (hbusy : s.xferBusy = false)
    (hlast : isTerminal i = true) : Invariant (terminal (advanceProg (perform i s))) := by
  have hend := hf.isTerminal_iff.mp hlast
  refine invariant_of_ready (by simp [State.ready]) (by simp) (by simpa using ht)
    (by simpa using hf.drive_terminal hfetch hend hb hbusy) (by simpa using hbusy) (.inr ?_)
  have hcfg : (terminal (advanceProg (perform i s))).cfg = s.cfg := by simp
  rw [key_terminal, prog_terminal, hf.key_advanced, hf.prog_advanced, hend, hcfg]
  exact hf.stepCount_eq

/-- The reload keeps the invariant: the line is where the descriptors so far have put it. -/
theorem invariant_reloadTimer (d : Nat) (hf : Fetched s c i table is) (hr : s.ready = false)
    (ht : s.trapped = false) (he : s.cfg.engine = .timer) (hb : backendInStep s)
    (hmid : isTerminal i = false) :
    Invariant (reloadTimer d (advanceProg (perform i s))) := by
  have hcfg : (reloadTimer d (advanceProg (perform i s))).cfg = s.cfg := by simp
  refine invariant_of_inFlight (by simpa [State.ready] using hr) (by simpa using ht) (by simp)
    ?_ ?_
  · rw [backendInStep_timer (by rwa [hcfg]), key_reloadTimer, prog_reloadTimer, hf.key_advanced,
      hf.prog_advanced, hcfg, hf.lookup]
    refine ⟨by simpa using ((backendInStep_timer he).mp hb).1, fun table' htable => ?_⟩
    cases htable
    simpa using hf.drive_timer he hb
  · rw [key_reloadTimer, prog_reloadTimer, hf.key_advanced, hf.prog_advanced, hcfg, hf.stepCount_eq]
    intro n hn
    cases hn
    have hne : s.prog.toNat + 1 ≠ is.length := by simp [← hf.isTerminal_iff, hmid]
    exact lt_of_le_of_ne hf.prog_lt hne

/-- The next transfer keeps the invariant: it is that of the descriptor at the new PROG. -/
theorem invariant_continued {i : Instr} {s : State} {c : Code} {p : Byte} (hr : s.ready = false)
    (ht : s.trapped = false) (he : s.cfg.engine ≠ .timer)
    (hfetch : fetchDesc (advanceProg (perform i s)) = some c) (hp : patOf c = some p) :
    Invariant (startXfer p s.now (advanceProg (perform i s))) := by
  have hnow : s.now = (advanceProg (perform i s)).now := by simp
  refine invariant_of_inFlight (by simpa [State.ready] using hr) (by simpa using ht) (by simp)
    ?_ fun n hn => ?_
  · rw [hnow]
    refine backendInStep_startXfer (by simpa using he) fun c' hc' => ?_
    rwa [← Option.some.inj (hfetch.symm.trans hc')]
  · rw [key_startXfer, startXfer_cfg] at hn
    rw [prog_startXfer]
    exact fetchDesc_lt_stepCount hfetch hn

/-- A performed descriptor keeps the invariant: the last one ends the sequence at rest, and any other
leaves the backend in step with the next. -/
theorem invariant_descriptorTicked {u : State} (hf : Fetched s c i table is)
    (hfetch : fetchDesc s = some c) (hr : s.ready = false) (ht : s.trapped = false)
    (hb : backendInStep s) (hbusy : s.xferBusy = false) (h : descriptorTicked i s u) :
    Invariant u := by
  obtain ⟨hlast, rfl⟩ | ⟨hmid, he, d, rfl⟩ | ⟨-, he, c', p, hc', hp, rfl⟩ := h
  · exact invariant_terminal hf hfetch ht hb hbusy hlast
  · exact invariant_reloadTimer d hf hr ht he hb hmid
  · exact invariant_continued hr ht he hc' hp

end

/-- A tick keeps the invariant. -/
theorem invariant_tickStep {s u : State} {r : Nat} (hl : legalConfig s.cfg = true)
    (hi : Invariant s) (hfault : s.fault = .none) (ha : s.armed = true) (hr : s.nextT ≤ r)
    (h : tickStep (advanceTo (due s r) s) = .next u) : Invariant u := by
  obtain ⟨hready, htrapped, hb, hp⟩ := hi.inFlight hfault ha
  obtain ⟨hb', hbusy'⟩ := enterTick_backendInStep hb hr
  obtain ⟨hnone, rfl⟩ | ⟨c, i, table, is, hfetch, hf, htick⟩ := tickStep_cases (by simpa using hl) h
  · refine invariant_of_trapped (by simpa [State.ready] using hready) (by simp) (by simp) ?_
    simpa [State.key] using stepCount_of_fetchDesc_none (s := s)
      (by simpa [fetchDesc, State.key, State.prog] using hnone) hp
  · exact invariant_descriptorTicked hf hfetch (by simpa [State.ready] using hready)
      (by simpa using htrapped) hb' hbusy' htick

/-- Settles O44: a block reset, a tick and a Host step each keep the invariant. -/
theorem invariantKept : Obligations.InvariantKept := by
  intro s u hi h
  have hi' : Invariant (settleTie s) := (invariant_hostMoved (settleTie_moves s)).mpr hi
  obtain ⟨hl, ⟨t, -, rfl⟩ | ⟨t, -, hf, ha, rfl, hrun⟩ | ⟨t, op, -, hf, -, -, rfl, hrun⟩⟩ :=
    step_cases h
  · exact invariant_blockReset _
  · rw [← due_settleTie] at hrun
    exact invariant_tickStep (by simpa using hl) hi' (by simpa using hf) (by simpa using ha)
      (by simp) hrun
  · rw [← due_settleTie] at hrun
    exact invariant_hostStep (by simpa using hl) (invariant_advanceTo hi' (due_le ..))
      (by simpa using hf) hrun

end Sys2Proof.Machine
end

section
/-! Who moves next and when (rules R58, R59, R107), what a step runs at an agent's turn (rules R50, R56,
R108), and the wired-AND line (rules R53, R54). -/

namespace Sys2Proof.Machine

/-! ### The time of each agent's next step -/

theorem due_timed {s : State} (t : Nat) (h : s.cfg.level = .timed) : due s t = max s.now t := by
  simp [due, h]

/-- A tick has a time exactly where it is armed (rule R107). -/
theorem tickTime_eq_none_iff {s : State} : tickTime s = none ↔ s.armed = false := by
  simp [tickTime]

theorem tickTime_of_armed {s : State} (h : s.armed = true) :
    tickTime s = some (due s (s.nextT + latency s)) := by
  simp [tickTime, h]

/-- The Host has no next step exactly where it has no line or is blocked (rule R180). -/
theorem hostTime_eq_none_iff {s : State} :
    hostTime s = none ↔ nextLine s = none ∨ hostBlocked s = true := by
  unfold hostTime
  split <;> simp_all

theorem hostTime_of_line {s : State} {op : HostOp} (hl : nextLine s = some op)
    (hb : hostBlocked s = false) : hostTime s = some (due s s.host.nextAt) := by
  simp [hostTime, hl, hb]

/-! ### Which agent's turn it is -/

/-- A tick that is next comes after no Host step that is due (rule R58). -/
theorem agentTurn_tick_le {s : State} {h t : Nat} (hn : agentTurn s = .tick h)
    (ht : hostTime s = some t) : h ≤ t := by
  cases hh : tickTime s with
  | none => simp [agentTurn, ht, hh] at hn
  | some h' =>
    simp only [agentTurn, ht, hh] at hn
    split_ifs at hn <;> cases hn <;> omega

/-- A Host step that is next comes after no armed tick's handler (rule R58). -/
theorem agentTurn_host_le {s : State} {h t : Nat} (hn : agentTurn s = .host t)
    (hh : tickTime s = some h) : t ≤ h := by
  cases ht : hostTime s with
  | none => simp [agentTurn, ht, hh] at hn
  | some t' =>
    simp only [agentTurn, ht, hh] at hn
    split_ifs at hn <;> cases hn <;> omega

/-- No agent is next exactly where neither has a time. -/
theorem agentTurn_idle_iff {s : State} :
    agentTurn s = .idle ↔ hostTime s = none ∧ tickTime s = none := by
  unfold agentTurn
  split
  · simp_all
  · simp_all
  · simp_all
  · split_ifs <;> simp_all

/-- With FAULT = NONE and no block reset pending the turn is the agents' (rules R58, R224). -/
theorem nextTurn_eq_agentTurn {s : State} (hf : s.fault = .none) (hr : s.inputs.resets = []) :
    nextTurn s = agentTurn s := by
  simp [nextTurn, hf, resetTime, hr]

/-- Settles O36: the turn is the agents', and each clause is one of theirs at Level B's times. -/
theorem turnsInTimeOrder : Obligations.TurnsInTimeOrder := by
  intro s hl hf hr
  rw [nextTurn_eq_agentTurn hf hr]
  refine ⟨fun h hn => ?_, fun t hn => ?_, ?_⟩
  · obtain ⟨harm, rfl⟩ := agentTurn_tick hn
    refine ⟨harm, due_timed _ hl, fun op hop hb => ?_⟩
    rw [← due_timed _ hl]
    exact agentTurn_tick_le hn (hostTime_of_line hop hb)
  · obtain ⟨hop, hb, rfl⟩ := agentTurn_host hn
    refine ⟨Option.isSome_iff_exists.mp hop, hb, due_timed _ hl, fun harm => ?_⟩
    rw [← due_timed (s.nextT + latency s) hl]
    exact agentTurn_host_le hn (tickTime_of_armed harm)
  · rw [agentTurn_idle_iff, hostTime_eq_none_iff, tickTime_eq_none_iff, and_comm]

/-! ### What a step runs at an agent's turn -/

/-- At a tick's turn a step is the tick at its handler instant (rule R108). -/
theorem step_of_tick {s : State} {h : Nat} (hl : legalConfig s.cfg = true)
    (hn : nextTurn s = .tick h) : step s = tickStep (advanceTo h (settleTie s)) := by
  simp only [step, runStep, hl, if_true, hn, turnStep]

/-- At the Host's turn a step is the Host step of its next line (rule R58). -/
theorem step_of_host {s : State} {t : Nat} {op : HostOp} (hl : legalConfig s.cfg = true)
    (hn : nextTurn s = .host t) (hop : nextLine s = some op) :
    step s = hostStep op (advanceTo t (settleTie s)) := by
  simp only [step, runStep, hl, if_true, hn, turnStep, hop]

theorem tickStep_of_fetchDesc {s : State} {c : Code} {i : Instr}
    (hf : fetchDesc (enterTick s) = some c) (hd : decode c = .ok i) :
    tickStep s = exec i (enterTick s) := by
  simp only [tickStep, hf, hd]

theorem hostStep_of_code {op : HostOp} {s : State} {c : Code} {i : Instr}
    (hk : lineKind op s = .code c) (hd : decode c = .ok i) :
    hostStep op s = exec i (enterHost s) := by
  simp only [hostStep, hk, hd]

theorem hostStep_of_inHost {op : HostOp} {s : State} (hk : lineKind op s = .inHost) :
    hostStep op s = .next (hostLocal op (enterHost s)) := by
  simp only [hostStep, hk]

theorem hostStep_of_notOwseq {op : HostOp} {s : State} (hk : lineKind op s = .notOwseq) :
    hostStep op s = .refused .badAccess := by
  simp only [hostStep, hk]

/-- What a line asks of OWSEQ depends on the configuration and the Host's registers only. -/
theorem lineKind_congr {s u : State} (hcfg : u.cfg = s.cfg) (hhost : u.host = s.host)
    (op : HostOp) : lineKind op u = lineKind op s := by
  simp only [lineKind, readReg, hcfg, hhost]

/-- The clock's advance to the Host's turn does not change what its line asks of OWSEQ. -/
@[simp] theorem lineKind_advanceTo_settleTie (op : HostOp) (t : Nat) (s : State) :
    lineKind op (advanceTo t (settleTie s)) = lineKind op s :=
  lineKind_congr (by simp) (by simp) op

/-! ### Which accesses are OWSEQ's -/

/-- An access is one to STEP exactly where it is of 1 byte at OWSEQ_BASE (rules R50, R56). -/
theorem isStepAccess_iff {cfg : Config} {addr width : Nat} :
    isStepAccess cfg addr width = true ↔ addr = cfg.base ∧ width = 1 := by
  simp [isStepAccess]

theorem isStepAccess_eq_false {cfg : Config} {addr width : Nat}
    (h : addr ≠ cfg.base ∨ width ≠ 1) : isStepAccess cfg addr width = false := by
  rw [Bool.eq_false_iff, Ne, isStepAccess_iff]
  tauto

theorem isStepAccess_base (cfg : Config) : isStepAccess cfg cfg.base 1 = true :=
  isStepAccess_iff.mpr ⟨rfl, rfl⟩

/-- Settles O22: such a line is no access to OWSEQ, and the Host step refuses it. -/
theorem badAccessRefused : Obligations.BadAccessRefused := by
  intro s t addr width v rd op hl hn hop haccess hbad
  have hkind : lineKind op s = .notOwseq := by
    obtain rfl | rfl := haccess <;> simp [lineKind, isStepAccess_eq_false hbad]
  rw [step_of_host hl hn hop]
  exact hostStep_of_notOwseq (by rwa [lineKind_advanceTo_settleTie])

/-- The lines on bytes alone ask nothing of OWSEQ (rule R82). -/
theorem lineKind_local (s : State) (rd rs rt : Reg) (imm : Byte) (i label : Nat) :
    ∀ op ∈ [HostOp.li rd imm, .bit rd rs i, .or rd rs rt, .shl rd rs i, .dec rd, .bnz rs label,
      .bz rs label], lineKind op s = .inHost := by
  simp [lineKind]

/-- Settles O33: each turn runs its agent's step, and each kind of line is what `lineKind` reads in it. -/
theorem stepRunsDecodedInstr : Obligations.StepRunsDecodedInstr := by
  intro s hl
  refine ⟨fun h c i hn hf hd => ?_, fun t op c i hn hop hk hd => ?_, fun t op hn hop hk => ?_,
    fun v => ?_, fun rd => ?_, fun rs => rfl, fun p reg => rfl, lineKind_local s⟩
  · rw [step_of_tick hl hn, tickStep_of_fetchDesc hf hd]
  · rw [step_of_host hl hn hop]
    exact hostStep_of_code (by rwa [lineKind_advanceTo_settleTie]) hd
  · rw [step_of_host hl hn hop]
    exact hostStep_of_inHost (by rwa [lineKind_advanceTo_settleTie])
  · simp [lineKind, isStepAccess_base]
  · simp [lineKind, isStepAccess_base]

/-! ### The line -/

/-- The line is low exactly where the engine or the Bus pulls it (rule R53). -/
theorem lineLevel_eq_false_iff (d : Drive) (b : Bus) (t : Nat) :
    lineLevel d b t = false ↔ d = .low ∨ pull b t = true := by
  cases d <;> simp [lineLevel]

/-- The Bus pulls exactly where an interval holds the time or an unnamed device pulls (rule R54). -/
theorem pull_eq_true_iff (b : Bus) (t : Nat) : pull b t = true ↔
    (∃ p ∈ b.pulls, p.1 ≤ t ∧ t < p.2) ∨ (b.free = true ∧ Config.freePull t = true) := by
  simp only [pull, Bool.or_eq_true, List.any_eq_true, Bool.and_eq_true, decide_eq_true_eq]

/-- Settles O52: rule R53's line over rule R54's Bus. -/
theorem lineIsWiredAnd : Obligations.LineIsWiredAnd :=
  ⟨lineLevel_eq_false_iff, pull_eq_true_iff⟩

end Sys2Proof.Machine
end

section
/-! The words of the two descriptor formats as their fields put together, and the decoder and the
encoder as each other's inverse (rules R70 to R77, R80, R81). -/

namespace Sys2Proof

/-! ### The fields of a descriptor word -/

/-- A comparison under a mask settles every field of the word that the mask covers. -/
theorem extractLsb'_of_and_eq {n : Nat} {w m k : BitVec n} (h : w &&& m = k) (i len : Nat)
    (hm : m.extractLsb' i len = BitVec.allOnes len) :
    w.extractLsb' i len = k.extractLsb' i len := by
  rw [← h, BitVec.extractLsb'_and, hm, BitVec.and_allOnes]

theorem timerWord_act (d : BitVec 16) (t : Bool) (a : BitVec 3) :
    (timerWord d t a).extractLsb' 0 3 = a := by
  rw [timerWord, BitVec.extractLsb'_append_eq_of_add_le (by omega), BitVec.extractLsb'_eq_self]

theorem timerWord_reserved (d : BitVec 16) (t : Bool) (a : BitVec 3) :
    (timerWord d t a).extractLsb' 4 12 = 0#12 := by
  apply BitVec.eq_of_getLsbD_eq
  intro i hi
  have hact : ¬ 4 + i < 3 := by omega
  have ht : ¬ 4 + i = 3 := by omega
  have hdelay : 4 + i < 16 := by omega
  simp [timerWord_bit, hact, ht, hdelay]

/-- A TDESC32 word with no reserved bit set is its fields put together (rule R72). -/
theorem timerWord_fields {w : BitVec 32} (h : w.extractLsb' 4 12 = 0#12) :
    timerWord (w.extractLsb' 16 16) (w.getLsbD 3) (w.extractLsb' 0 3) = w := by
  apply BitVec.eq_of_getLsbD_eq
  intro i hi
  rw [timerWord_bit]
  split_ifs with hact ht hreserved
  · simp [hact]
  · rw [ht]
  · have hbit := congrArg (fun v => v.getLsbD (i - 4)) h
    have hpos : i - 4 < 12 := by omega
    have hsum : 4 + (i - 4) = i := by omega
    simpa [hpos, hsum] using hbit.symm
  · have hpos : i - 16 < 16 := by omega
    have hsum : 16 + (i - 16) = i := by omega
    simp [hpos, hsum]

theorem shiftWord_reserved (t : Bool) (b : BitVec 3) (c : BitVec 2) (p : Byte) :
    (shiftWord t b c p).extractLsb' 13 2 = 0#2 := by
  apply BitVec.eq_of_getLsbD_eq
  intro i hi
  rw [BitVec.getLsbD_extractLsb', shiftWord_bit]
  interval_cases i <;> simp

theorem shiftWord_cap (t : Bool) (b : BitVec 3) (c : BitVec 2) (p : Byte) :
    (shiftWord t b c p).extractLsb' 8 2 = c := by
  rw [shiftWord, BitVec.extractLsb'_append_eq_of_le (by omega),
    BitVec.extractLsb'_append_eq_of_add_le (by omega), BitVec.extractLsb'_eq_self]

/-- A SDESC16 word with no reserved bit set is its fields put together (rule R73). -/
theorem shiftWord_fields {w : BitVec 16} (h : w.extractLsb' 13 2 = 0#2) :
    shiftWord (w.getLsbD 15) (w.extractLsb' 10 3) (w.extractLsb' 8 2) (w.extractLsb' 0 8) = w := by
  apply BitVec.eq_of_getLsbD_eq
  intro i hi
  rw [shiftWord_bit]
  split_ifs with hpat hcap hbitsel ht
  · simp [hpat]
  · have hpos : i - 8 < 2 := by omega
    have hsum : 8 + (i - 8) = i := by omega
    simp [hpos, hsum]
  · have hpos : i - 10 < 3 := by omega
    have hsum : 10 + (i - 10) = i := by omega
    simp [hpos, hsum]
  · rw [ht]
  · have hbit := congrArg (fun v => v.getLsbD (i - 13)) h
    have hpos : i - 13 < 2 := by omega
    have hsum : 13 + (i - 13) = i := by omega
    simpa [hpos, hsum] using hbit.symm

/-! ### Decode of encode -/

/-- A mask below bit 3 reads ACT and nothing else (rule R81). -/
theorem and_actMask (w : BitVec 32) (m : BitVec 3) :
    w &&& m.setWidth 32 = (w.extractLsb' 0 3 &&& m).setWidth 32 := by
  apply BitVec.eq_of_getLsbD_eq
  intro i hi
  by_cases h : i < 3
  · simp [h, hi]
  · simp [h, BitVec.getLsbD_of_ge m i (by omega)]

/-- A word with a reserved ACT fits no row of a legal one (rules R79, R81). -/
theorem reservedAct_and_ne {w : BitVec 32} (h : 4#3 < w.extractLsb' 0 3) :
    ∀ k ∈ [0#32, 1#32, 2#32, 3#32, 4#32], w &&& 0x0000FFF7#32 ≠ k := by
  intro k hk hw
  have hlegal : ∀ k ∈ [0#32, 1#32, 2#32, 3#32, 4#32], ¬ 4#3 < k.extractLsb' 0 3 := by simp
  rw [extractLsb'_of_and_eq hw 0 3 rfl] at h
  exact hlegal k hk h

/-- A reserved ACT is read back with every other bit of its word (rule R79). -/
theorem decodeTimer_reservedAct {w : BitVec 32} (h : 4#3 < w.extractLsb' 0 3) : decodeTimer w =
    .ok (if w.extractLsb' 0 3 = 5#3 then .tRsvd5 (w.extractLsb' 3 29)
      else .tRsvd6 (w.extractLsb' 3 29) ((w.extractLsb' 0 3).getLsbD 0)) := by
  have hlegal := reservedAct_and_ne h
  have h7 : w &&& 7#32 = _ := and_actMask w 7#3
  have h6 : w &&& 6#32 = _ := and_actMask w 6#3
  have hb0 : w.getLsbD 0 = (w.extractLsb' 0 3).getLsbD 0 := by simp
  simp only [List.forall_mem_cons] at hlegal
  rw [decodeTimer, hb0]
  obtain hact | hact | hact : w.extractLsb' 0 3 = 5#3 ∨ w.extractLsb' 0 3 = 6#3 ∨
      w.extractLsb' 0 3 = 7#3 := by bv_omega
  all_goals simp [hlegal, h7, h6, hact]

/-- No CAP_BIT word fits another legal row, whatever its BITSEL (rules R77, R81). -/
theorem capBit_and_ne (t : Bool) (b : BitVec 3) (p : Byte) :
    shiftWord t b 2#2 p &&& 0x7F00#16 ≠ 0x0000#16 ∧
      shiftWord t b 2#2 p &&& 0x7F00#16 ≠ 0x0100#16 := by
  rw [shiftWord_and]
  revert b
  decide

/-- The reserved CAP is read back with every other bit of its word (rule R79). -/
theorem decodeShift_reservedCap {w : BitVec 16} (h : w.extractLsb' 8 2 = 3#2) :
    decodeShift w = .ok (.sRsvd (w.extractLsb' 10 6) (w.extractLsb' 0 8)) := by
  have hlegal : ∀ m k : BitVec 16, m.extractLsb' 8 2 = 3#2 → k.extractLsb' 8 2 ≠ 3#2 →
      w &&& m ≠ k := fun m k hm hk hw => hk ((extractLsb'_of_and_eq hw 8 2 hm).symm.trans h)
  have hfits : w &&& 0x0300#16 = 0x0300#16 := by
    have h8 : w.getLsbD 8 = true := by simpa using congrArg (fun v => v.getLsbD 0) h
    have h9 : w.getLsbD 9 = true := by simpa using congrArg (fun v => v.getLsbD 1) h
    apply BitVec.eq_of_getLsbD_eq
    intro i hi
    rw [BitVec.getLsbD_and]
    interval_cases i <;> simp_all
  rw [decodeShift, if_neg (hlegal _ _ rfl (by decide)), if_neg (hlegal _ _ rfl (by decide)),
    if_neg (hlegal _ _ rfl (by decide)), if_pos hfits]

/-! A reserved word's fields, as the encoder puts them together (rule R79). -/

theorem append_act (r : BitVec 29) (a : BitVec 3) : (r ++ a : BitVec 32).extractLsb' 0 3 = a := by
  rw [BitVec.extractLsb'_append_eq_of_add_le (by omega), BitVec.extractLsb'_eq_self]

theorem append_rest (r : BitVec 29) (a : BitVec 3) : (r ++ a : BitVec 32).extractLsb' 3 29 = r :=
  BitVec.extractLsb'_append_eq_left

theorem append_cap (r : BitVec 6) (p : Byte) :
    (r ++ 3#2 ++ p : BitVec 16).extractLsb' 8 2 = 3#2 := by
  rw [BitVec.extractLsb'_append_eq_of_le (by omega),
    BitVec.extractLsb'_append_eq_of_add_le (by omega), BitVec.extractLsb'_eq_self]

theorem append_capRest (r : BitVec 6) (p : Byte) :
    (r ++ 3#2 ++ p : BitVec 16).extractLsb' 10 6 = r := by
  rw [BitVec.extractLsb'_append_eq_of_le (by omega)]
  exact BitVec.extractLsb'_append_eq_left

theorem append_pat (r : BitVec 6) (p : Byte) :
    (r ++ 3#2 ++ p : BitVec 16).extractLsb' 0 8 = p := by
  rw [BitVec.extractLsb'_append_eq_of_add_le (by omega), BitVec.extractLsb'_eq_self]

/-- Settles O1: each field of an encoded word is read back, the reserved words' by their ACT or CAP. -/
theorem decodeOfEncodedInstr : Obligations.DecodeOfEncodedInstr := by
  intro i
  cases i with
  | issueReset | issueRead | issueRsvd | poll rd => rfl
  | owWait rd | owReset rd | owWrbyte rs | owRdbyte rd => rfl
  | issueWrite p => cases p <;> rfl
  | tHold d t | tDriveLow d t | tRelease d t | tSampleSet d t | tSampleOr d t =>
    simp [encode, decode, decodeTimer, timerWord_and, timerWord_delay, -BitVec.getLsbD_eq_getElem,
      timerWord_t]
  | tRsvd5 r =>
    have hact := append_act r 5#3
    rw [encode, decode, decodeTimer_reservedAct (by simp [hact]), hact, append_rest, if_pos rfl]
  | tRsvd6 r b0 =>
    have hact := append_act r (if b0 then 7#3 else 6#3)
    rw [encode, decode, decodeTimer_reservedAct (by rw [hact]; cases b0 <;> decide), hact,
      append_rest]
    cases b0 <;> rfl
  | sCapNone p t | sCapOrLow p t =>
    simp [encode, decode, decodeShift, shiftWord_and, shiftWord_pat, -BitVec.getLsbD_eq_getElem,
      shiftWord_t]
  | sCapBit p b t =>
    simp [encode, decode, decodeShift, capBit_and_ne, shiftWord_and_cap, shiftWord_pat,
      shiftWord_bitsel, -BitVec.getLsbD_eq_getElem, shiftWord_t]
  | sRsvd r p =>
    rw [encode, decode, decodeShift_reservedCap (append_cap r p), append_capRest, append_pat]

/-! ### Encode of decode -/

/-- A word that fits a legal timer row is its DELAY and T with the row's ACT (rule R81). -/
theorem timerWord_of_and {w : BitVec 32} (a : BitVec 3) (h : w &&& 0x0000FFF7#32 = a.setWidth 32) :
    timerWord (w.extractLsb' 16 16) (w.getLsbD 3) a = w := by
  have hfields : ∀ a : BitVec 3, (a.setWidth 32).extractLsb' 4 12 = 0#12 ∧
      (a.setWidth 32).extractLsb' 0 3 = a := by decide
  obtain ⟨hreserved, hact⟩ := hfields a
  have hw := timerWord_fields ((extractLsb'_of_and_eq h 4 12 rfl).trans hreserved)
  rwa [extractLsb'_of_and_eq h 0 3 rfl, hact] at hw

/-- A word is its bits above ACT and its ACT. -/
theorem append_of_act {w : BitVec 32} {a : BitVec 3} (h : w.extractLsb' 0 3 = a) :
    w.extractLsb' 3 29 ++ a = w := by
  rw [← h]
  exact BitVec.extractLsb'_append_extractLsb'

/-- A word is its bits around CAP and its CAP. -/
theorem append_of_cap {w : BitVec 16} {c : BitVec 2} (h : w.extractLsb' 8 2 = c) :
    w.extractLsb' 10 6 ++ c ++ w.extractLsb' 0 8 = w := by
  rw [← h, BitVec.extractLsb'_append_extractLsb'_eq_extractLsb' (show 10 = 8 + 2 from rfl)]
  exact BitVec.extractLsb'_append_extractLsb'

/-- A word that fits a legal shift row other than CAP_BIT's is its PAT and T with the row's CAP. -/
theorem shiftWord_of_and {w : BitVec 16} (c : BitVec 2)
    (h : w &&& 0x7F00#16 = (c ++ 0#8).setWidth 16) :
    shiftWord (w.getLsbD 15) 0#3 c (w.extractLsb' 0 8) = w := by
  have hfields : ∀ c : BitVec 2, ((c ++ 0#8).setWidth 16).extractLsb' 13 2 = 0#2 ∧
      ((c ++ 0#8).setWidth 16).extractLsb' 10 3 = 0#3 ∧
      ((c ++ 0#8).setWidth 16).extractLsb' 8 2 = c := by decide
  obtain ⟨hreserved, hbitsel, hcap⟩ := hfields c
  have hw := shiftWord_fields ((extractLsb'_of_and_eq h 13 2 rfl).trans hreserved)
  rwa [extractLsb'_of_and_eq h 10 3 rfl, hbitsel, extractLsb'_of_and_eq h 8 2 rfl, hcap] at hw

theorem shiftWord_of_and_cap {w : BitVec 16} (h : w &&& 0x6300#16 = 0x0200#16) :
    shiftWord (w.getLsbD 15) (w.extractLsb' 10 3) 2#2 (w.extractLsb' 0 8) = w := by
  have hw := shiftWord_fields (extractLsb'_of_and_eq h 13 2 rfl)
  rwa [extractLsb'_of_and_eq h 8 2 rfl] at hw

/-- Every timer word that decodes is the word of its instruction (rules R72, R76). -/
theorem encode_of_decodeTimer {w : BitVec 32} {i : Instr} (h : decodeTimer w = .ok i) :
    encode i = .tdesc w := by
  rw [decodeTimer] at h
  split_ifs at h with h0 h1 h2 h3 h4 h5 h6 <;> cases h
  · exact congrArg Code.tdesc (timerWord_of_and 0#3 h0)
  · exact congrArg Code.tdesc (timerWord_of_and 1#3 h1)
  · exact congrArg Code.tdesc (timerWord_of_and 2#3 h2)
  · exact congrArg Code.tdesc (timerWord_of_and 3#3 h3)
  · exact congrArg Code.tdesc (timerWord_of_and 4#3 h4)
  · exact congrArg Code.tdesc (append_of_act (extractLsb'_of_and_eq h5 0 3 rfl))
  · refine congrArg Code.tdesc (append_of_act ?_)
    have hact : w.extractLsb' 0 3 &&& 6#3 = 6#3 := by
      simpa [BitVec.extractLsb'_and] using congrArg (fun v => v.extractLsb' 0 3) h6
    have hb0 : w.getLsbD 0 = (w.extractLsb' 0 3).getLsbD 0 := by simp
    rw [hb0]
    generalize w.extractLsb' 0 3 = a at hact
    revert a
    decide

/-- Every shift word that decodes is the word of its instruction (rules R73, R77). -/
theorem encode_of_decodeShift {w : BitVec 16} {i : Instr} (h : decodeShift w = .ok i) :
    encode i = .sdesc w := by
  rw [decodeShift] at h
  split_ifs at h with h0 h1 h2 h3 <;> cases h
  · exact congrArg Code.sdesc (shiftWord_of_and 0#2 h0)
  · exact congrArg Code.sdesc (shiftWord_of_and 1#2 h1)
  · exact congrArg Code.sdesc (shiftWord_of_and_cap h2)
  · exact congrArg Code.sdesc (append_of_cap (extractLsb'_of_and_eq h3 8 2 rfl))

/-- Settles O2: each row's mask, its ACT or CAP and the operands cover the whole word. -/
theorem descriptorReencodes : Obligations.DescriptorReencodes :=
  ⟨fun _ _ => encode_of_decodeTimer, fun _ _ => encode_of_decodeShift⟩

/-! ### The opcode map -/

/-- Two rows that one word fits agree where both masks look. -/
theorem Row.patterns_agree {r r' : Row} {w : BitVec 32} (h : r.fits w = true)
    (h' : r'.fits w = true) : r.pattern &&& r'.mask = r'.pattern &&& r.mask := by
  simp only [Row.fits, beq_iff_eq] at h h'
  rw [← h, ← h', BitVec.and_assoc, BitVec.and_assoc, BitVec.and_comm r.mask]

/-- Settles O3: any two rows of one format disagree at a bit that both their masks cover. -/
theorem opcodeMapUnambiguous : Obligations.OpcodeMapUnambiguous := by
  have hdisjoint : ∀ r ∈ opcodeMap, ∀ r' ∈ opcodeMap, r.format = r'.format →
      r.pattern &&& r'.mask = r'.pattern &&& r.mask → r = r' := by decide
  intro r hr r' hr' w hf hw hw'
  exact hdisjoint r hr r' hr' hf (Row.patterns_agree hw hw')

end Sys2Proof
end

section
/-! The decoder against the opcode map, and the words and tables that are not legal (rules R75, R76,
R77, R79, R81, R117). -/

namespace Sys2Proof

/-! ### The decoder and the rows -/

/-- A row fits a widened word exactly where its match and mask, not yet widened, do. -/
theorem Row.fits_widened {v : Nat} {w m p : BitVec v} (hv : v ≤ 32) {name : String} {f : Format} :
    Row.fits ⟨name, f, p.setWidth 32, m.setWidth 32⟩ (w.setWidth 32) = true ↔ w &&& m = p := by
  simp only [Row.fits, beq_iff_eq, ← BitVec.setWidth_and]
  refine ⟨fun h => ?_, fun h => congrArg _ h⟩
  have hback := congrArg (BitVec.setWidth v) h
  rwa [BitVec.setWidth_setWidth_of_le _ hv, BitVec.setWidth_setWidth_of_le _ hv,
    BitVec.setWidth_eq, BitVec.setWidth_eq] at hback

theorem Row.fits_iff {w m p : BitVec 32} {name : String} {f : Format} :
    Row.fits ⟨name, f, p, m⟩ w = true ↔ w &&& m = p := beq_iff_eq

/-- The word of a decoded command fits the row of its mnemonic (rules R75, R81). -/
theorem row_of_decodeCmd (w : Byte) : ∃ r ∈ opcodeMap, r.format = .cmd8 ∧
    r.mnemonic = (decodeCmd w).mnemonic ∧ r.fits (w.setWidth 32) = true := by
  have hrsvd : ∀ w : Byte, w &&& 0x60#8 ≠ 0x00#8 → w &&& 0x60#8 ≠ 0x20#8 →
      w &&& 0x60#8 ≠ 0x40#8 → w &&& 0x60#8 = 0x60#8 := by decide
  have hfits {name : String} {p : Byte} (h : w &&& 0x60#8 = p) :
      Row.fits ⟨name, .cmd8, p.setWidth 32, 0x60#32⟩ (w.setWidth 32) = true :=
    (Row.fits_widened (m := 0x60#8) (by decide)).mpr h
  rw [decodeCmd]
  split_ifs with h0 h1 h2
  · exact ⟨⟨"ISSUE_RESET", _, _, _⟩, by decide, rfl, rfl, hfits h0⟩
  · exact ⟨⟨"ISSUE_READ", _, _, _⟩, by decide, rfl, rfl, hfits h1⟩
  · exact ⟨⟨"ISSUE_WRITE", _, _, _⟩, by decide, rfl, rfl, hfits h2⟩
  · exact ⟨⟨"ISSUE_RSVD", _, _, _⟩, by decide, rfl, rfl, hfits (hrsvd w h0 h1 h2)⟩

/-- A timer word that decodes fits the row of its instruction's mnemonic (rule R81). -/
theorem row_of_decodeTimer {w : BitVec 32} {i : Instr} (h : decodeTimer w = .ok i) :
    ∃ r ∈ opcodeMap, r.format = .tdesc32 ∧ r.mnemonic = i.mnemonic ∧ r.fits w = true := by
  rw [decodeTimer] at h
  split_ifs at h with h0 h1 h2 h3 h4 h5 h6 <;> cases h
  · exact ⟨⟨"T_HOLD", _, _, _⟩, by decide, rfl, rfl, Row.fits_iff.mpr h0⟩
  · exact ⟨⟨"T_DRIVE_LOW", _, _, _⟩, by decide, rfl, rfl, Row.fits_iff.mpr h1⟩
  · exact ⟨⟨"T_RELEASE", _, _, _⟩, by decide, rfl, rfl, Row.fits_iff.mpr h2⟩
  · exact ⟨⟨"T_SAMPLE_SET", _, _, _⟩, by decide, rfl, rfl, Row.fits_iff.mpr h3⟩
  · exact ⟨⟨"T_SAMPLE_OR", _, _, _⟩, by decide, rfl, rfl, Row.fits_iff.mpr h4⟩
  · exact ⟨⟨"T_RSVD5", _, _, _⟩, by decide, rfl, rfl, Row.fits_iff.mpr h5⟩
  · exact ⟨⟨"T_RSVD6", _, _, _⟩, by decide, rfl, rfl, Row.fits_iff.mpr h6⟩

/-- A shift word that decodes fits the row of its instruction's mnemonic (rule R81). -/
theorem row_of_decodeShift {w : BitVec 16} {i : Instr} (h : decodeShift w = .ok i) :
    ∃ r ∈ opcodeMap, r.format = .sdesc16 ∧ r.mnemonic = i.mnemonic ∧
      r.fits (w.setWidth 32) = true := by
  have hfits {name : String} {m p : BitVec 16} :
      w &&& m = p → Row.fits ⟨name, .sdesc16, p.setWidth 32, m.setWidth 32⟩ (w.setWidth 32) = true :=
    (Row.fits_widened (by decide)).mpr
  rw [decodeShift] at h
  split_ifs at h with h0 h1 h2 h3 <;> cases h
  · exact ⟨⟨"S_CAP_NONE", _, _, _⟩, by decide, rfl, rfl, hfits h0⟩
  · exact ⟨⟨"S_CAP_OR_LOW", _, _, _⟩, by decide, rfl, rfl, hfits h1⟩
  · exact ⟨⟨"S_CAP_BIT", _, _, _⟩, by decide, rfl, rfl, hfits h2⟩
  · exact ⟨⟨"S_RSVD", _, _, _⟩, by decide, rfl, rfl, hfits h3⟩

/-- The word of a decoded instruction fits the row of its mnemonic (rules R80, R81). -/
theorem row_of_decode {c : Code} {f : Format} {b : BitVec 32} {i : Instr}
    (hc : c.formatAndBits = some (f, b)) (hd : decode c = .ok i) :
    ∃ r ∈ opcodeMap, r.format = f ∧ r.mnemonic = i.mnemonic ∧ r.fits b = true := by
  cases c with
  | cmd w => cases hc; cases hd; exact row_of_decodeCmd w
  | stat rd =>
    cases hc; cases hd
    exact ⟨⟨"POLL", _, 0#32, 0#32⟩, by decide, rfl, rfl, Row.fits_iff.mpr rfl⟩
  | tdesc w => cases hc; exact row_of_decodeTimer hd
  | sdesc w => cases hc; exact row_of_decodeShift hd
  | pseudo p r => cases hc

/-- A timer word that decodes to nothing fits no timer row (rules R72, R81). -/
theorem not_fits_of_decodeTimer_error {w : BitVec 32} {e : DecodeError}
    (h : decodeTimer w = .error e) : ∀ r ∈ opcodeMap, r.format = .tdesc32 → r.fits w = false := by
  rw [decodeTimer] at h
  split_ifs at h with h0 h1 h2 h3 h4 h5 h6
  cases h
  simp [opcodeMap, Row.fits, h0, h1, h2, h3, h4, h5, h6]

/-- A shift word that decodes to nothing fits no shift row (rules R73, R81). -/
theorem not_fits_of_decodeShift_error {w : BitVec 16} {e : DecodeError}
    (h : decodeShift w = .error e) :
    ∀ r ∈ opcodeMap, r.format = .sdesc16 → r.fits (w.setWidth 32) = false := by
  have hfits {name : String} {m p : BitVec 16} (hne : ¬ w &&& m = p) :
      Row.fits ⟨name, .sdesc16, p.setWidth 32, m.setWidth 32⟩ (w.setWidth 32) = false := by
    rwa [Bool.eq_false_iff, Ne, Row.fits_widened (by decide)]
  rw [decodeShift] at h
  split_ifs at h with h0 h1 h2 h3
  cases h
  simp only [opcodeMap, List.cons_append, List.nil_append, List.forall_mem_cons, reduceCtorEq,
    false_implies, true_implies, true_and]
  exact ⟨hfits h0, hfits h1, hfits h2, hfits h3, List.forall_mem_nil _⟩

/-- A word that fits a row of its format decodes (rules R80, R81). -/
theorem decode_of_fits {c : Code} {f : Format} {b : BitVec 32} {r : Row}
    (hc : c.formatAndBits = some (f, b)) (hr : r ∈ opcodeMap) (hf : r.format = f)
    (hfits : r.fits b = true) : ∃ i, decode c = .ok i := by
  cases hd : decode c with
  | ok i => exact ⟨i, rfl⟩
  | error e =>
    cases c with
    | cmd w => cases hd
    | stat rd => cases hd
    | tdesc w => cases hc; simp [not_fits_of_decodeTimer_error hd r hr hf] at hfits
    | sdesc w => cases hc; simp [not_fits_of_decodeShift_error hd r hr hf] at hfits
    | pseudo p reg => cases hd

/-- Settles O4: the word of a decoded instruction fits the instruction's own row, and no other of its
format. -/
theorem decoderFollowsOpcodeMap : Obligations.DecoderFollowsOpcodeMap := by
  have hmnemonic : ∀ r ∈ opcodeMap, ∀ r' ∈ opcodeMap, r.mnemonic = r'.mnemonic → r = r' := by decide
  intro c f b hc r hr hf
  constructor
  · intro hfits
    obtain ⟨i, hd⟩ := decode_of_fits hc hr hf hfits
    obtain ⟨r', hr', hf', hm, hfits'⟩ := row_of_decode hc hd
    rw [opcodeMapUnambiguous r hr r' hr' b (hf.trans hf'.symm) hfits hfits']
    exact ⟨i, hd, hm.symm⟩
  · rintro ⟨i, hd, hi⟩
    obtain ⟨r', hr', -, hm, hfits'⟩ := row_of_decode hc hd
    rwa [hmnemonic r hr r' hr' (hi.symm.trans hm.symm)]

/-! ### Commands -/

/-- The mask of a command row reads OP and nothing else (rules R75, R81). -/
theorem and_opMask_iff (w : Byte) (op : BitVec 2) :
    w &&& 0x60#8 = (op ++ 0#5).setWidth 8 ↔ w.extractLsb' 5 2 = op := by
  revert w op
  decide

/-- Settles O6: each row's mask reads OP. -/
theorem commandOperands : Obligations.CommandOperands := by
  intro w
  have h0 : w &&& 0x60#8 = 0x00#8 ↔ _ := and_opMask_iff w 0b00#2
  have h1 : w &&& 0x60#8 = 0x20#8 ↔ _ := and_opMask_iff w 0b01#2
  have h2 : w &&& 0x60#8 = 0x40#8 ↔ _ := and_opMask_iff w 0b10#2
  simp only [decodeCmd, h0, h1, h2]

end Sys2Proof

namespace Sys2Proof.Machine

/-! ### Legal words -/

theorem delayMatchesT_iff {d : BitVec 16} {t : Bool} :
    delayMatchesT d t = true ↔ (t = true ↔ d = 0#16) := by
  cases t <;> simp [delayMatchesT]

/-- A legal timer word, by its fields (rules R76, R79). -/
theorem legalTimerWord_iff {w : BitVec 32} : legalTimerWord w ↔
    ∃ d t a, w = timerWord d t a ∧ a.toNat < 5 ∧ delayMatchesT d t = true := by
  constructor
  · rintro ⟨hreserved, hact, hdelay⟩
    exact ⟨_, _, _, (timerWord_fields hreserved).symm, hact, delayMatchesT_iff.mpr hdelay⟩
  · rintro ⟨d, t, a, rfl, hact, hdelay⟩
    rw [legalTimerWord, timerWord_act, timerWord_t, timerWord_delay]
    exact ⟨timerWord_reserved d t a, hact, delayMatchesT_iff.mp hdelay⟩

/-- Each ACT below 5 is an instruction's, whose word is legal where its DELAY is (rules R72, R76). -/
theorem timerWord_encodes {a : BitVec 3} (ha : a.toNat < 5) (d : BitVec 16) (t : Bool) :
    ∃ i, encode i = .tdesc (timerWord d t a) ∧ i.wellFormed = delayMatchesT d t := by
  obtain rfl | rfl | rfl | rfl | rfl :
      a = 0#3 ∨ a = 1#3 ∨ a = 2#3 ∨ a = 3#3 ∨ a = 4#3 := by bv_omega
  · exact ⟨.tHold d t, rfl, rfl⟩
  · exact ⟨.tDriveLow d t, rfl, rfl⟩
  · exact ⟨.tRelease d t, rfl, rfl⟩
  · exact ⟨.tSampleSet d t, rfl, rfl⟩
  · exact ⟨.tSampleOr d t, rfl, rfl⟩

/-- The timer words that decode to a well-formed instruction are the legal ones (rule R79). -/
theorem decodeTimer_wellFormed_iff {w : BitVec 32} :
    (∃ i, decodeTimer w = .ok i ∧ i.wellFormed = true) ↔ legalTimerWord w := by
  rw [legalTimerWord_iff]
  constructor
  · rintro ⟨i, hd, hwf⟩
    have hw := encode_of_decodeTimer hd
    obtain ⟨d, t, hdelay, rfl | rfl | rfl | rfl | rfl⟩ := decodeTimer_forms hd hwf
    all_goals exact ⟨d, t, _, (Code.tdesc.inj hw).symm, by decide, hdelay⟩
  · rintro ⟨d, t, a, rfl, hact, hdelay⟩
    obtain ⟨i, hi, hwf⟩ := timerWord_encodes hact d t
    have hd := decodeOfEncodedInstr i
    rw [hi] at hd
    exact ⟨i, hd, hwf.trans hdelay⟩

/-- A legal shift word, by its fields (rules R77, R79). -/
theorem legalShiftWord_iff {w : BitVec 16} : legalShiftWord w ↔
    ∃ t b c p, w = shiftWord t b c p ∧ c ≠ 3#2 ∧ (b ≠ 0#3 → c = 2#2) := by
  constructor
  · rintro ⟨hreserved, hcap, hbitsel⟩
    exact ⟨_, _, _, _, (shiftWord_fields hreserved).symm, hcap, hbitsel⟩
  · rintro ⟨t, b, c, p, rfl, hcap, hbitsel⟩
    rw [legalShiftWord, shiftWord_cap, shiftWord_bitsel]
    exact ⟨shiftWord_reserved t b c p, hcap, hbitsel⟩

/-- Each CAP but the reserved one is an instruction's, with a BITSEL for CAP_BIT only (rule R73). -/
theorem shiftWord_encodes {b : BitVec 3} {c : BitVec 2} (hc : c ≠ 3#2) (hb : b ≠ 0#3 → c = 2#2)
    (t : Bool) (p : Byte) :
    ∃ i, encode i = .sdesc (shiftWord t b c p) ∧ i.wellFormed = true := by
  obtain rfl | rfl | rfl : c = 0#2 ∨ c = 1#2 ∨ c = 2#2 := by bv_omega
  · obtain rfl : b = 0#3 := by by_contra h; cases hb h
    exact ⟨.sCapNone p t, rfl, rfl⟩
  · obtain rfl : b = 0#3 := by by_contra h; cases hb h
    exact ⟨.sCapOrLow p t, rfl, rfl⟩
  · exact ⟨.sCapBit p b t, rfl, rfl⟩

/-- The shift words that decode to a well-formed instruction are the legal ones (rule R79). -/
theorem decodeShift_wellFormed_iff {w : BitVec 16} :
    (∃ i, decodeShift w = .ok i ∧ i.wellFormed = true) ↔ legalShiftWord w := by
  rw [legalShiftWord_iff]
  constructor
  · rintro ⟨i, hd, hwf⟩
    have hw := encode_of_decodeShift hd
    obtain ⟨p, t, -, rfl | rfl | ⟨b, rfl⟩⟩ := decodeShift_forms hd hwf
    all_goals exact ⟨t, _, _, p, (Code.sdesc.inj hw).symm, by decide, by simp⟩
  · rintro ⟨t, b, c, p, rfl, hcap, hbitsel⟩
    obtain ⟨i, hi, hwf⟩ := shiftWord_encodes hcap hbitsel t p
    have hd := decodeOfEncodedInstr i
    rw [hi] at hd
    exact ⟨i, hd, hwf⟩

/-- A descriptor is legal where its word decodes to a well-formed instruction of the engine's format. -/
theorem legalDesc_tdesc_isSome {w : BitVec 32} : (legalDesc .timer (.tdesc w)).isSome = true ↔
    ∃ i, decodeTimer w = .ok i ∧ i.wellFormed = true := by
  cases hd : decodeTimer w <;> simp [legalDesc, hd]

theorem legalDesc_sdesc_isSome {e : Engine} {w : BitVec 16} (he : e ≠ .timer) :
    (legalDesc e (.sdesc w)).isSome = true ↔ ∃ i, decodeShift w = .ok i ∧ i.wellFormed = true := by
  cases hd : decodeShift w <;> cases e <;> simp_all [legalDesc]

/-! ### Tables -/

/-- With no key twice, a list's lookup finds each of its entries. -/
theorem lookup_of_nodup {α β : Type} [BEq α] [LawfulBEq α] {l : List (α × β)} {k : α} {v : β}
    (hl : (l.map Prod.fst).Nodup) (hm : (k, v) ∈ l) : l.lookup k = some v := by
  obtain ⟨l₁, l₂, rfl⟩ := List.append_of_mem hm
  refine List.lookup_eq_some_iff.mpr ⟨l₁, l₂, rfl, fun p hp => ?_⟩
  rw [List.map_append, List.nodup_append] at hl
  have hne := hl.2.2 p.1 (List.mem_map_of_mem hp) k (by simp)
  simpa using hne.symm

/-- A key whose table meets the conditions is the key of an entry. -/
theorem mem_keys_of_legalTableAt {cfg : Config} {key : Key} {is : List Instr}
    (h : legalTableAt cfg key = some is) : key ∈ cfg.tables.map Prod.fst := by
  cases ht : lookupTable cfg key with
  | none => simp [legalTableAt, ht] at h
  | some table => exact List.mem_map_of_mem (lookupTable_mem ht)

/-- A legal configuration has four entries, one for each of four keys, so none twice (rule R117
condition 1). -/
theorem legalConfig_keys_nodup {cfg : Config} (hl : legalConfig cfg = true) :
    (cfg.tables.map Prod.fst).Nodup := by
  rw [legalConfig] at hl
  split at hl
  · rename_i h0 h1 h2 h3
    simp only [Bool.and_eq_true, beq_iff_eq] at hl
    have hsub : [keyReset, keyRead, keyWrite0, keyWrite1] ⊆ cfg.tables.map Prod.fst := by
      simp only [List.cons_subset, List.nil_subset, and_true]
      exact ⟨mem_keys_of_legalTableAt h0, mem_keys_of_legalTableAt h1,
        mem_keys_of_legalTableAt h2, mem_keys_of_legalTableAt h3⟩
    have hperm := (List.subperm_of_subset (by decide) hsub).perm_of_length_le (by simp [hl])
    exact hperm.nodup_iff.mp (by decide)
  · cases hl

/-- Settles O7: a legal word is the word of a well-formed instruction, and a legal configuration has
legal words only, in every entry of its tables. -/
theorem illegalDescriptorWords : Obligations.IllegalDescriptorWords := by
  refine ⟨fun w => legalDesc_tdesc_isSome.trans decodeTimer_wellFormed_iff,
    fun e w he => (legalDesc_sdesc_isSome he).trans decodeShift_wellFormed_iff,
    fun s key table c hm hc hbad => ?_⟩
  have hl : legalConfig s.cfg = false := by
    by_contra hl
    rw [Bool.not_eq_false] at hl
    obtain ⟨is, htable⟩ := legalConfig_table hl (lookup_of_nodup (legalConfig_keys_nodup hl) hm)
    obtain ⟨n, hn⟩ := List.getElem?_of_mem hc
    obtain ⟨i, -, hi⟩ := (mapM_some htable.mapm).2 n c hn
    simp [hbad] at hi
  exact ⟨hl, by simp [step, runStep, hl]⟩

end Sys2Proof.Machine
end

section
/-! The table key and the step counts (rules R74, R147, R181), and the descriptors that stop (rules
R76, R79, R80, R117). -/

namespace Sys2Proof.Machine

/-! ### The table key -/

/-- The bit RESULT of a STEP value, as a field. -/
theorem ofBool_stepResult (w : Byte) : BitVec.ofBool (stepResult w) = w.extractLsb' 4 1 := by
  apply BitVec.eq_of_getLsbD_eq
  intro i hi
  obtain rfl : i = 0 := by omega
  simp [stepResult]

/-- A key of OP other than WRITE ends in 0, and no key has OP = 0b11 and RESULT (rule R74). -/
theorem keyOf_ne (w : Byte) : keyOf w ≠ 0b001#3 ∧ keyOf w ≠ 0b011#3 ∧ keyOf w ≠ 0b111#3 := by
  rw [keyOf]
  generalize stepOp w = op
  generalize stepResult w = r
  revert op r
  decide

/-- Settles O8: the key is OP and, for WRITE, the bit RESULT; the step counts are the default tables'
lengths. -/
theorem keySelectsTable : Obligations.KeySelectsTable := by
  refine ⟨fun w => ?_, keyOf_ne, by decide, fun e he => ?_⟩
  · change stepOp w ++ BitVec.ofBool (stepOp w == opWrite && stepResult w) =
      stepOp w ++ if stepOp w = opWrite then w.extractLsb' 4 1 else 0#1
    by_cases hop : stepOp w = opWrite
    · rw [← ofBool_stepResult]; simp [hop]
    · simp [hop, beq_eq_false_iff_ne.mpr hop]
  · cases e with
    | timer => exact absurd rfl he
    | shiftIrq | shiftPoll => decide

/-! ### Descriptors that stop -/

/-- Settles O31: the three have a meaning on no engine. -/
theorem reservedDescriptorsRefused : Obligations.ReservedDescriptorsRefused :=
  ⟨fun _ _ => rfl, fun _ _ _ => rfl, fun _ _ _ => rfl⟩

section
variable {s : State}

theorem runTimer_otherBackend (perform : State → State) (d : BitVec 16) (t : Bool)
    (he : s.cfg.engine ≠ .timer) : runTimer perform d t s = .refused .otherBackend := by
  unfold runTimer
  cases h : s.cfg.engine with
  | timer => exact absurd h he
  | shiftIrq | shiftPoll => rfl

theorem runTimer_illegal (perform : State → State) {d : BitVec 16} {t : Bool}
    (he : s.cfg.engine = .timer) (hd : ¬ (t = true ↔ d = 0#16)) :
    runTimer perform d t s = .refused .illegalDescriptor := by
  rw [← delayMatchesT_iff] at hd
  simp [runTimer, he, hd]

theorem runShift_otherBackend (capture : State → State) (t : Bool) (he : s.cfg.engine = .timer) :
    runShift capture t s = .refused .otherBackend := by
  simp only [runShift, he]

/-- No transfer starts where PROG points at no shift descriptor (rule R178). -/
theorem continueShift_illegal (h : ∀ w, fetchDesc s ≠ some (.sdesc w)) :
    continueShift s = .refused .illegalConfiguration := by
  unfold continueShift
  cases hf : fetchDesc s with
  | none => rfl
  | some c =>
    cases c with
    | sdesc w => exact absurd hf (h w)
    | cmd w | stat rd | tdesc w | pseudo p reg => rfl

theorem fetchDesc_advanceProg (s : State) :
    fetchDesc (advanceProg s) = lookupDesc s.cfg s.key (s.prog + 1#4).toNat := by
  simp [fetchDesc, State.key, State.prog]

/-- A shift descriptor without T stops where the table that the key after its capture selects has no
next shift descriptor (rule R117 condition 3). -/
theorem runShift_illegal (i : Instr) (he : s.cfg.engine ≠ .timer)
    (h : ∀ w, lookupDesc s.cfg (perform i s).key (s.prog + 1#4).toNat ≠ some (.sdesc w)) :
    runShift (perform i) false s = .refused .illegalConfiguration := by
  rw [runShift_eq (perform i) false he, if_neg nofun]
  apply continueShift_illegal
  rw [fetchDesc_advanceProg, perform_cfg, State.prog, stepProg_perform]
  exact h

end

/-- The timer descriptors run by rule R108 where ENGINE = TIMER. -/
theorem exec_timerDesc (d : BitVec 16) (t : Bool) (s : State) :
    ∀ i ∈ [Instr.tHold d t, .tDriveLow d t, .tRelease d t, .tSampleSet d t, .tSampleOr d t],
      exec i s = runTimer (perform i) d t s := by
  simp only [List.forall_mem_cons]
  exact ⟨rfl, rfl, rfl, rfl, rfl, List.forall_mem_nil _⟩

/-- The shift descriptors run by rule R108 where ENGINE = SHIFT_*. -/
theorem exec_shiftDesc (p : Byte) (b : BitVec 3) (t : Bool) (s : State) :
    ∀ i ∈ [Instr.sCapNone p t, .sCapOrLow p t, .sCapBit p b t],
      exec i s = runShift (perform i) t s := by
  simp only [List.forall_mem_cons]
  exact ⟨rfl, rfl, rfl, List.forall_mem_nil _⟩

/-- The key after CAP_OR_LOW's capture (rules R74, R176). -/
theorem key_perform_sCapOrLow (p : Byte) (t : Bool) (s : State) : (perform (.sCapOrLow p t) s).key =
    keyOf (withResult (s.result || s.rxd != 0xFF#8) s.step) := by
  simp [perform, captureOrLow, State.key, resultCapOrLow]

/-- The key after CAP_BIT's capture (rules R74, R175). -/
theorem key_perform_sCapBit (p : Byte) (b : BitVec 3) (t : Bool) (s : State) :
    (perform (.sCapBit p b t) s).key = keyOf (withResult (s.rxd.getLsbD b.toNat) s.step) := by
  simp [perform, captureBit, State.key, resultCapBit]

/-- Settles O32: a timer descriptor stops in `runTimer`, and a shift descriptor in `runShift`. -/
theorem descriptorStops : Obligations.DescriptorStops := by
  refine ⟨fun s d t i hi => ?_, fun s p b t i hi he => ?_, fun s p b he i key hi h => ?_⟩
  · rw [exec_timerDesc d t s i hi]
    exact ⟨runTimer_otherBackend _ d t, runTimer_illegal _⟩
  · rw [exec_shiftDesc p b t s i hi]
    exact runShift_otherBackend _ t he
  · simp only [List.mem_cons, List.not_mem_nil, or_false, Prod.mk.injEq] at hi
    obtain ⟨rfl, rfl⟩ | ⟨rfl, rfl⟩ | ⟨rfl, rfl⟩ := hi
    · exact runShift_illegal (.sCapNone p false) he h
    · exact runShift_illegal (.sCapOrLow p false) he (by rwa [key_perform_sCapOrLow])
    · exact runShift_illegal (.sCapBit p b false) he (by rwa [key_perform_sCapBit])

end Sys2Proof.Machine
end

section
/-! The pseudo-instructions and the Host's own lines (rules R82, R83, R114, R200 to R204), and a command
word that is placed as the Host's next line (rules R70, R80, R101). -/

namespace Sys2Proof.Machine

section
variable (s : State)

/-! ### The Host's registers, lines and place -/

@[simp] theorem readReg_writeReg_self (rd : Reg) (v : Byte) : readReg rd (writeReg rd v s) = v :=
  Regs_get_set_self ..

theorem readReg_writeReg_ne {r rd : Reg} (v : Byte) (h : r ≠ rd) :
    readReg r (writeReg rd v s) = readReg r s := Regs_get_set_ne _ v h

theorem onlyHostChanged_setHost (h : HostCtx) : onlyHostChanged s (s.setHost h) := by
  simp [onlyHostChanged]

theorem regsKept_writeReg (rd : Reg) (v : Byte) : regsKept [rd] s (writeReg rd v s) :=
  fun _ hr => readReg_writeReg_ne s v (by simpa using hr)

theorem regsKept_pollPass : regsKept [.t, .t2] s (pollPass s) := by
  intro r hr
  simp only [List.mem_cons, List.not_mem_nil, or_false, not_or] at hr
  rw [pollPass, readReg_writeReg_ne _ _ hr.2, readReg_writeReg_ne _ _ hr.1]

/-! ### The Host's own lines -/

/-- What a line that computes leaves: its register, and nothing else (rule R82). -/
theorem writeReg_frame (rd : Reg) (v : Byte) : readReg rd (writeReg rd v s) = v ∧
    onlyHostChanged s (writeReg rd v s) ∧ regsKept [rd] s (writeReg rd v s) ∧
    placeKept s (writeReg rd v s) ∧ (writeReg rd v s).host.micro = s.host.micro :=
  ⟨readReg_writeReg_self s rd v, onlyHostChanged_setHost s _, regsKept_writeReg s rd v,
    ⟨rfl, rfl, rfl⟩, rfl⟩

/-- Settles O21: a line that computes writes one register, and a branch that is taken the place. -/
theorem hostLocalLines : Obligations.HostLocalLines := by
  intro s rd rs rt imm i label
  refine ⟨fun op v hop => ?_, rfl, rfl⟩
  have hwrite : hostLocal op s = writeReg rd v s := by
    simp only [List.mem_cons, List.not_mem_nil, or_false, Prod.mk.injEq] at hop
    obtain ⟨rfl, rfl⟩ | ⟨rfl, rfl⟩ | ⟨rfl, rfl⟩ | ⟨rfl, rfl⟩ | ⟨rfl, rfl⟩ := hop <;> rfl
  rw [hwrite]
  exact writeReg_frame s rd v

/-! ### `ow.wait` -/

/-- One pass of the loop reads STEP once, and READY decides how it ends (rule R114). -/
theorem exec_owWait (rd : Reg) : exec (.owWait rd) s = .next (if byteOfBit s.ready = 0#8 then
    pushLines [.pseudo .wait rd] (pollPass s)
    else writeReg rd (byteOfBit s.result) (pollPass s)) := rfl

theorem exec_owWait_ready {s : State} (rd : Reg) (h : s.ready = true) :
    exec (.owWait rd) s = .next (writeReg rd (byteOfBit s.result) (pollPass s)) := by
  rw [exec_owWait, h]; rfl

theorem exec_owWait_busy {s : State} (rd : Reg) (h : s.ready = false) :
    exec (.owWait rd) s = .next (pushLines [.pseudo .wait rd] (pollPass s)) := by
  rw [exec_owWait, h]; rfl

/-- Settles O17: the two ends of one pass of the loop. -/
theorem owWaitPolls : Obligations.OwWaitPolls := by
  intro rd s
  refine ⟨fun h => ⟨_, exec_owWait_ready rd h, ?_, onlyHostChanged_setHost s _, ?_, ⟨rfl, rfl, rfl⟩,
    rfl⟩, fun h => ⟨_, exec_owWait_busy rd h, rfl, ?_, onlyHostChanged_setHost s _, ?_,
    ⟨rfl, rfl, rfl⟩, rfl⟩⟩
  · rw [readReg_writeReg_self, byteOfBit]
  · intro r hr
    simp only [List.mem_cons, List.not_mem_nil, or_false, not_or] at hr
    rw [readReg_writeReg_ne _ _ hr.1]
    exact regsKept_pollPass s r (by simp [hr])
  · change byteOfBit s.ready = 0#8
    rw [h]; rfl
  · exact regsKept_pollPass s

end

/-! ### The operations that issue -/

/-- The lines that `ow.wrbyte` leaves, bit by bit (rules R201, R203). -/
theorem wrbyteLines_eq (rs : Reg) (i n : Nat) : wrbyteLines rs i n =
    (List.range' i n).flatMap (fun i => [.bit .t rs i, .writeBit .t, .pseudo .wait .t3]) := by
  induction n generalizing i with
  | zero => rfl
  | succ n ih => rw [wrbyteLines, ih, List.range'_succ]; rfl

/-- The lines that `ow.rdbyte` leaves, bit by bit (rules R201, R204). -/
theorem rdbyteLines_eq (base : Nat) (rd : Reg) (i n : Nat) : rdbyteLines base rd i n =
    (List.range' i n).flatMap (fun i => [.write base 1 0x20#8, .pseudo .wait .t, .shl .t .t i,
      .or rd rd .t]) := by
  induction n generalizing i with
  | zero => rfl
  | succ n ih => rw [rdbyteLines, ih, List.range'_succ]; rfl

section
variable {s : State}

/-- The Host's registers decide what is kept of them. -/
theorem regsKept_of_regs {u v : State} {changed : List Reg} (h : u.host.regs = v.host.regs)
    (hv : regsKept changed s v) : regsKept changed s u := by
  intro r hr
  rw [← hv r hr, readReg, readReg, h]

/-- What a façade operation's command leaves, where the operation has written the Host's registers and
put its other lines next (rules R83, R101). -/
theorem issue_facade (w : Byte) (regs : Regs) (ls : List HostOp) (hr : s.ready = true) :
    ∃ u, u = issue w (s.setHost { s.host with regs := regs, micro := ls ++ s.host.micro }) ∧
      u.step = issuedStep w ∧ primed s u ∧ engineFrame s u ∧ devicesIssued (stepOp w) s u ∧
      u.inputs = s.inputs ∧ placeKept s u ∧ u.host.regs = regs ∧
      u.host.micro = ls ++ s.host.micro := by
  refine ⟨_, rfl, ?_⟩
  generalize hv : s.setHost _ = v
  have hready : v.ready = true := by rw [← hv]; exact hr
  rw [issue_ready w hready]
  subst hv
  exact ⟨by simp, accept_primed w (s.setHost _), by simp [engineFrame],
    accept_devicesIssued w (s.setHost _), by simp, by simp [placeKept], by simp, by simp⟩

end

/-- Settles O18: RESET, and the wait as the one line left. -/
theorem owResetIssues : Obligations.OwResetIssues := by
  intro rd s hr
  obtain ⟨u, rfl, hstep, hprimed, hframe, hdevices, hinputs, hplace, hregs, hmicro⟩ :=
    issue_facade 0x00#8 s.host.regs [.pseudo .wait rd] hr
  exact ⟨_, rfl, hstep, hprimed, hframe, hdevices, hinputs,
    regsKept_of_regs (v := s) hregs (fun _ _ => rfl), hplace, hmicro⟩

/-- Settles O19: WRITE of bit 0, and the wait and the other bits' lines left. -/
theorem owWrbyteIssues : Obligations.OwWrbyteIssues := by
  intro rs s hr
  obtain ⟨u, rfl, hstep, hprimed, hframe, hdevices, hinputs, hplace, hregs, hmicro⟩ :=
    issue_facade (writeBitByte (byteOfBit ((readReg rs s).getLsbD 0)))
      (writeReg .t (byteOfBit ((readReg rs s).getLsbD 0)) s).host.regs
      (.pseudo .wait .t3 :: wrbyteLines rs 1 7) hr
  have hbyte : ∀ b : Bool, issuedStep (writeBitByte (byteOfBit b)) = (if b then 0x50#8 else 0x40#8) ∧
      stepOp (writeBitByte (byteOfBit b)) = 0b10#2 := by decide
  obtain ⟨hw, hop⟩ := hbyte ((readReg rs s).getLsbD 0)
  refine ⟨_, rfl, hstep.trans hw, hprimed, hframe, hop ▸ hdevices, hinputs,
    regsKept_of_regs hregs (regsKept_writeReg s .t _), hplace, ?_, ?_⟩
  · exact congrArg (Regs.get · .t) hregs
  · rw [← wrbyteLines_eq]; exact hmicro

/-- Settles O20: READ after the register is cleared, and the rest of the eight bits' lines left. -/
theorem owRdbyteIssues : Obligations.OwRdbyteIssues := by
  intro rd s hr
  obtain ⟨u, rfl, hstep, hprimed, hframe, hdevices, hinputs, hplace, hregs, hmicro⟩ :=
    issue_facade 0x20#8 (writeReg rd 0#8 s).host.regs
      (.pseudo .wait .t :: .shl .t .t 0 :: .or rd rd .t :: rdbyteLines s.cfg.base rd 1 7) hr
  refine ⟨_, rfl, hstep, hprimed, hframe, hdevices, hinputs,
    regsKept_of_regs hregs (regsKept_writeReg s rd _), hplace, ?_, ?_⟩
  · exact (congrArg (Regs.get · rd) hregs).trans (readReg_writeReg_self s rd 0#8)
  · rw [← rdbyteLines_eq]; exact hmicro

/-! ### A placed command word -/

/-- A byte that the table does not give to a reserved timer row is a command word (log entry 14). -/
theorem tableCode_byte {w : Byte} (h5 : w ≠ 5#8) (h6 : w ≠ 6#8) (h7 : w ≠ 7#8) :
    tableCode 8 w.toNat = some (.cmd w) := by
  have hnot : ¬ (5 ≤ w.toNat ∧ w.toNat ≤ 7) := by bv_omega
  simp [tableCode, hnot]

/-- With ENGINE = TIMER the clock's advance to its own time changes nothing. -/
theorem advanceTo_now_timer {s : State} (hl : s.cfg.level = .timed) (he : s.cfg.engine = .timer) :
    advanceTo s.now s = s := by
  rw [advanceTo_timer hl he, runCounter, countsBetween, Nat.sub_self]
  simp [State.setCnt, State.setNow]

/-- Settles O35: the placed line is the Host's next, at the clock's time, with no tick armed. -/
theorem placedWordRuns : Obligations.PlacedWordRuns := by
  intro w h5 h6 h7
  have hcode := tableCode_byte h5 h6 h7
  refine ⟨by simp [decodeTableWord, hcode, decode], ?_⟩
  have hplaced : State.reset.withFetchWord 8 w.toNat = placeCode (.cmd w) State.reset := by
    rw [State.withFetchWord, placeTableWord, hcode]
  have hlegal : legalConfig State.reset.cfg = true := by decide
  have hturn : nextTurn (placeCode (.cmd w) State.reset) = .host 0 := rfl
  rw [hplaced, step_of_host (s := placeCode (.cmd w) State.reset) hlegal hturn rfl,
    hostStep_of_code (c := .cmd w) rfl rfl]
  exact congrArg (fun s => exec (decodeCmd w) (enterHost s))
    (advanceTo_now_timer (s := settleTie (placeCode (.cmd w) State.reset)) rfl rfl)

end Sys2Proof.Machine
end

section
/-! The commands and the host read at any time (rules R101 to R104, R111, R113, R223), and the words of the
spec's vectors. -/

namespace Sys2Proof.Machine

/-- Settles O5: each word has its row's bits. -/
theorem specWordsDecode : Obligations.SpecWordsDecode := by
  unfold Obligations.SpecWordsDecode
  decide

/-- The five commands issue their own words, which STEP then holds (rules R71, R101 to R104, R111). -/
theorem exec_command {i : Instr} {w : Byte} (h : (i, w) ∈ [(Instr.issueReset, 0x00#8),
    (.issueRead, 0x20#8), (.issueWrite false, 0x40#8), (.issueWrite true, 0x50#8),
    (.issueRsvd, 0x60#8)]) :
    (∀ s, exec i s = .next (issue w s)) ∧ issuedStep w = w := by
  simp only [List.mem_cons, List.not_mem_nil, or_false, Prod.mk.injEq] at h
  obtain ⟨rfl, rfl⟩ | ⟨rfl, rfl⟩ | ⟨rfl, rfl⟩ | ⟨rfl, rfl⟩ | ⟨rfl, rfl⟩ := h <;>
    exact ⟨fun _ => rfl, by decide⟩

/-- Settles O13: with READY = 1 the command is accepted. -/
theorem issueStartsSequence : Obligations.IssueStartsSequence := by
  intro s hr i w hi
  obtain ⟨hexec, hw⟩ := exec_command hi
  refine ⟨accept w s, by rw [hexec, issue_ready w hr], by simpa using hw, accept_primed w s, ?_,
    accept_devicesIssued w s, by simp, by simp⟩
  simp [engineFrame]

/-- A façade operation issues its command after it has written the Host's registers and lines (rule
R83). -/
theorem exec_facade (reg : Reg) (s : State) :
    ∀ i ∈ [Instr.owReset reg, .owWrbyte reg, .owRdbyte reg],
      ∃ w h, exec i s = .next (issue w (s.setHost h)) := by
  simp only [List.forall_mem_cons]
  exact ⟨⟨_, _, rfl⟩, ⟨_, _, rfl⟩, ⟨_, _, rfl⟩, List.forall_mem_nil _⟩

/-- Settles O14: with READY = 0 the command is turned away before any other effect. -/
theorem issueWhileBusyFaults : Obligations.IssueWhileBusyFaults := by
  intro s hr
  refine ⟨fun i hi => ?_, fun reg i hi => ?_⟩
  · have hissue : ∃ w, exec i s = .next (issue w s) := by
      simp only [List.mem_cons, List.not_mem_nil, or_false] at hi
      obtain rfl | rfl | rfl | rfl | rfl := hi <;> exact ⟨_, rfl⟩
    obtain ⟨w, hw⟩ := hissue
    rw [hw, issue_busy w hr]
    rfl
  · obtain ⟨w, h, hexec⟩ := exec_facade reg s i hi
    rw [issue_busy (s := s.setHost h) w hr] at hexec
    exact ⟨_, hexec, rfl, onlyHostChanged_setHost s h⟩

/-- Settles O16: POLL writes STEP to its register. -/
theorem pollReadsStep : Obligations.PollReadsStep := by
  intro rd s
  obtain ⟨hread, hframe, hregs, hplace, hmicro⟩ := writeReg_frame s rd s.step
  exact ⟨rfl, writeReg rd s.step s, rfl, hread, writeReg_step s rd s.step, hframe, hregs, hplace, hmicro⟩

end Sys2Proof.Machine
end

section
/-! The tick of each descriptor (rules R108 to R110, R140 to R145, R175 to R178): what `runTimer` and
`runShift` leave is said once for every `perform i`, and each descriptor adds what its own effect is. -/

namespace Sys2Proof.Machine

/-! ### What every descriptor's own effect leaves -/

section
variable (i : Instr) (s : State)

@[simp] theorem perform_nextT : (perform i s).nextT = s.nextT := by
  obtain ⟨_, _, _, _, _, h⟩ := perform_performed i s; simp [h]
@[simp] theorem perform_cnt : (perform i s).cnt = s.cnt := by
  obtain ⟨_, _, _, _, _, h⟩ := perform_performed i s; simp [h]
@[simp] theorem perform_cntPhase : (perform i s).cntPhase = s.cntPhase := by
  obtain ⟨_, _, _, _, _, h⟩ := perform_performed i s; simp [h]
@[simp] theorem perform_rxd : (perform i s).rxd = s.rxd := by
  obtain ⟨_, _, _, _, _, h⟩ := perform_performed i s; simp [h]
@[simp] theorem perform_xferStart : (perform i s).xferStart = s.xferStart := by
  obtain ⟨_, _, _, _, _, h⟩ := perform_performed i s; simp [h]
@[simp] theorem perform_fault : (perform i s).fault = s.fault := by
  obtain ⟨_, _, _, _, _, h⟩ := perform_performed i s; simp [h]
@[simp] theorem perform_host : (perform i s).host = s.host := by
  obtain ⟨_, _, _, _, _, h⟩ := perform_performed i s; simp [h]

/-- A descriptor's own effect on the Bus is the pulls that answer what it drives (rule R207). -/
theorem perform_bus : ∃ ps, (perform i s).bus = s.bus.addPulls ps := by
  have hnone : ∃ ps, s.bus = s.bus.addPulls ps := ⟨[], by simp [Bus.addPulls]⟩
  cases i with
  | tDriveLow => exact driveAt_bus s.now .low s
  | tRelease => exact driveAt_bus s.now .rel s
  | tSampleSet => simpa [perform, performSampleSet] using hnone
  | tSampleOr => simpa [perform, performSampleOr] using hnone
  | sCapOrLow => simpa [perform, captureOrLow] using hnone
  | sCapBit => simpa [perform, captureBit] using hnone
  | _ => exact hnone

/-- At the terminal step every device sees the operation and RESULT as they end (rule R207). -/
theorem terminal_bus :
    (terminal s).bus = s.bus.mapResponders (Responder.onReady s.op s.result) := by
  have hop : stepOp (withReady true s.step) = s.op := stepOp_withReady ..
  have hresult : stepResult (withReady true s.step) = s.result := stepResult_withReady ..
  rw [← hop, ← hresult, terminal, noteReady]
  dsimp only
  split <;> rfl

/-- What the end of a sequence leaves after `i` has been performed (rules R110, R207). -/
theorem terminal_frame : tickedStep true s (terminal (advanceProg (perform i s))) ∧
    engineFrame s (terminal (advanceProg (perform i s))) ∧
    devicesTicked true s (terminal (advanceProg (perform i s))) ∧
    (terminal (advanceProg (perform i s))).bus.pulls = (perform i s).bus.pulls := by
  obtain ⟨ps, hbus⟩ := perform_bus i s
  refine ⟨by simp [tickedStep, State.ready, State.op, State.prog], by simp [engineFrame], ?_, ?_⟩
  · simp [devicesTicked, terminal_bus, hbus, Bus.mapResponders, Bus.addPulls, State.op, State.result]
  · simp [terminal_bus, Bus.mapResponders]

end

/-! ### The timer's descriptors -/

/-- What rule R108 does with a timer descriptor of a legal word, whatever it performs. -/
theorem runTimer_frame (i : Instr) {s : State} {d : BitVec 16} {t : Bool}
    (he : s.cfg.engine = .timer) (hd : t = true ↔ d = 0#16) :
    ∃ u, runTimer (perform i) d t s = .next u ∧ u.drive = (perform i s).drive ∧
      u.result = (perform i s).result ∧ u.bus.pulls = (perform i s).bus.pulls ∧
      u.inputs = (perform i s).inputs ∧ tickedStep t s u ∧ timerTicked d t s u ∧
      devicesTicked t s u := by
  refine ⟨_, runTimer_runs (perform i) he (delayMatchesT_iff.mpr hd), ?_⟩
  cases t with
  | true =>
    obtain ⟨hstep, hframe, hdevices, hpulls⟩ := terminal_frame i s
    exact ⟨by simp, by simp [State.result], hpulls, by simp, hstep,
      ⟨by simp, by simp, by simp, by simp, by simp, by simp, by simp, by simp, hframe⟩, hdevices⟩
  | false =>
    obtain ⟨ps, hbus⟩ := perform_bus i s
    refine ⟨by simp, by simp [State.result], by simp, by simp, ?_, ?_, ?_⟩
    · simp [tickedStep, State.ready, State.op, State.prog]
    · simp [timerTicked, engineFrame, reload, nsPerCount]
    · simp [devicesTicked, hbus, Bus.addPulls]

/-- Settles O23: T_HOLD performs nothing. -/
theorem tHoldTick : Obligations.THoldTick := by
  intro s d t he hd
  obtain ⟨u, hx, hdrive, hresult, hpulls, hinputs, hstep, htimer, hdevices⟩ :=
    runTimer_frame (.tHold d t) he hd
  exact ⟨u, hx, hdrive, hresult, hstep, htimer, hdevices, hpulls, hinputs⟩

/-- Settles O24: T_DRIVE_LOW drives, and a line driven low is low. -/
theorem tDriveLowTick : Obligations.TDriveLowTick := by
  intro s d t he hd
  obtain ⟨u, hx, hdrive, hresult, -, hinputs, hstep, htimer, hdevices⟩ :=
    runTimer_frame (.tDriveLow d t) he hd
  have hlow : u.drive = .low := hdrive.trans (driveLine_drive s .low)
  exact ⟨u, hx, hlow, fun _ _ => by rw [hlow]; rfl,
    hresult.trans (congrArg stepResult (driveLine_step s .low)), hstep, htimer, hdevices,
    hinputs.trans (driveLine_inputs s .low)⟩

/-- Settles O25: T_RELEASE releases, and a released line is the Bus's. -/
theorem tReleaseTick : Obligations.TReleaseTick := by
  intro s d t he hd
  obtain ⟨u, hx, hdrive, hresult, -, hinputs, hstep, htimer, hdevices⟩ :=
    runTimer_frame (.tRelease d t) he hd
  have hrel : u.drive = .rel := hdrive.trans (driveLine_drive s .rel)
  exact ⟨u, hx, hrel, fun _ _ => by rw [hrel]; rfl,
    hresult.trans (congrArg stepResult (driveLine_step s .rel)), hstep, htimer, hdevices,
    hinputs.trans (driveLine_inputs s .rel)⟩

/-- A draw is the list's head, or the free value (log entry 10). -/
theorem drawn_eq_headD {α : Type} (given : List α) (free : Nat → α) (n : Nat) :
    drawn given free n = given.headD (free n) := by
  cases given <;> rfl

/-- A sample is the line's level in Level B and takes no draw. -/
theorem tookSample_timed {s : State} (kind : SampleKind) (hl : s.cfg.level = .timed) :
    sample s = lineLevel s.drive s.bus s.now ∧ (tookSample kind s).inputs = s.inputs := by
  simp [sample, tookSample, hl, line]

/-- A sample is the next draw in Level A, and takes it (rule R109). -/
theorem tookSample_untimed {s : State} (kind : SampleKind) (hl : s.cfg.level = .untimed) :
    sample s = s.inputs.samples.headD (Config.freeSample s.inputs.fresh) ∧
      (tookSample kind s).inputs =
        { s.inputs with samples := s.inputs.samples.tail, fresh := s.inputs.fresh + 1 } := by
  simp [sample, tookSample, hl, drawn_eq_headD, useSample]

/-- Settles O26: RESULT is the sample. -/
theorem tSampleSetTick : Obligations.TSampleSetTick := by
  intro s d t he hd
  obtain ⟨u, hx, hdrive, hresult, hpulls, hinputs, hstep, htimer, hdevices⟩ :=
    runTimer_frame (.tSampleSet d t) he hd
  have hsample : u.result = sample s := by
    simpa [perform, performSampleSet, State.result, resultSampleSet] using hresult
  refine ⟨u, hx, by simpa [perform, performSampleSet] using hdrive, fun hl => ?_, fun hl => ?_, hstep,
    htimer, hdevices, by simpa [perform, performSampleSet] using hpulls⟩
  · exact ⟨hsample.trans (tookSample_timed .read hl).1,
      hinputs.trans (tookSample_timed (s := setResult _ s) .read hl).2⟩
  · exact ⟨hsample.trans (tookSample_untimed .read hl).1,
      hinputs.trans (tookSample_untimed (s := setResult _ s) .read hl).2⟩

/-- Settles O27: RESULT gains the sample's low. -/
theorem tSampleOrTick : Obligations.TSampleOrTick := by
  intro s d t he hd
  obtain ⟨u, hx, hdrive, hresult, hpulls, hinputs, hstep, htimer, hdevices⟩ :=
    runTimer_frame (.tSampleOr d t) he hd
  have hsample : u.result = (s.result || !sample s) := by
    simpa [perform, performSampleOr, State.result, resultSampleOr] using hresult
  refine ⟨u, hx, by simpa [perform, performSampleOr] using hdrive, fun h => by simp [hsample, h],
    fun hl => ?_, fun hl => ?_, hstep, htimer, hdevices,
    by simpa [perform, performSampleOr] using hpulls⟩
  · exact ⟨by rw [hsample, (tookSample_timed .presence hl).1],
      hinputs.trans (tookSample_timed (s := setResult _ s) .presence hl).2⟩
  · exact ⟨by rw [hsample, (tookSample_untimed .presence hl).1],
      hinputs.trans (tookSample_untimed (s := setResult _ s) .presence hl).2⟩

/-! ### The shift engine's descriptors -/

/-- A shift descriptor's capture touches RESULT and the observer's record. -/
theorem perform_shift (p : Byte) (b : BitVec 3) (t : Bool) (s : State) :
    ∀ i ∈ [Instr.sCapNone p t, .sCapOrLow p t, .sCapBit p b t],
      (perform i s).drive = s.drive ∧ (perform i s).bus = s.bus ∧
        (perform i s).inputs = s.inputs := by
  simp only [List.forall_mem_cons]
  refine ⟨⟨rfl, rfl, rfl⟩, ?_, ?_, List.forall_mem_nil _⟩
  · simp [perform, captureOrLow]
  · simp [perform, captureBit]

/-- A shift descriptor without T starts the transfer of the next one's pattern (rule R178). -/
theorem runShift_continues (i : Instr) {s : State} {c : Code} {p : Byte}
    (he : s.cfg.engine ≠ .timer)
    (hc : lookupDesc s.cfg (perform i s).key (s.prog + 1#4).toNat = some c) (hp : patOf c = some p) :
    runShift (perform i) false s = .next (startXfer p s.now (advanceProg (perform i s))) := by
  have hfetch : fetchDesc (advanceProg (perform i s)) = some c := by
    rw [fetchDesc_advanceProg, perform_cfg, State.prog, stepProg_perform]
    exact hc
  rw [runShift_eq _ _ he, if_neg nofun, continueShift, hfetch]
  simp only [hp, advanceProg_eq, State.setStep_now, perform_now]

/-- What rule R108 does with a shift descriptor, whatever it captures: with T it ends the sequence, and
without T the next descriptor's transfer starts (rules R108, R178). -/
theorem exec_shiftDesc_frame {i : Instr} {s : State} {pat p : Byte} {b : BitVec 3} {t : Bool}
    (hi : i ∈ [Instr.sCapNone pat t, .sCapOrLow pat t, .sCapBit pat b t])
    (he : s.cfg.engine ≠ .timer)
    (hnext : t = false → ∃ w, lookupDesc s.cfg (perform i s).key (s.prog + 1#4).toNat =
      some (.sdesc w) ∧ w.extractLsb' 0 8 = p) :
    ∃ u, exec i s = .next u ∧ u.result = (perform i s).result ∧ tickedStep t s u ∧
      shiftTicked p t s u ∧ devicesTicked t s u ∧ u.inputs = s.inputs := by
  obtain ⟨hdrive, hbus, hinputs⟩ := perform_shift pat b t s i hi
  rw [exec_shiftDesc pat b t s i hi]
  cases t with
  | true =>
    obtain ⟨hstep, hframe, hdevices, -⟩ := terminal_frame i s
    exact ⟨_, by rw [runShift_eq _ _ he]; rfl, by simp [State.result], hstep,
      ⟨by simp, by simp, by simp, by simp, hframe, by simp [hdrive], nofun⟩, hdevices,
      by simpa using hinputs⟩
  | false =>
    obtain ⟨w, hw, hp⟩ := hnext rfl
    obtain ⟨ps, hps⟩ : ∃ ps, (startXfer p s.now (advanceProg (perform i s))).bus =
        s.bus.addPulls ps := hbus ▸ startXfer_bus p s.now (advanceProg (perform i s))
    refine ⟨_, runShift_continues i he hw (congrArg some hp), by simp [State.result], ?_, ?_, ?_,
      by simpa using hinputs⟩
    · simp [tickedStep, State.ready, State.op, State.prog]
    · simp [shiftTicked, engineFrame, tXfer, tBit]
    · rw [devicesTicked, hps]
      simp [Bus.addPulls]

/-- Settles O28: S_CAP_NONE captures nothing. -/
theorem sCapNoneTick : Obligations.SCapNoneTick := by
  intro s pat p t he hnext
  exact exec_shiftDesc_frame (i := .sCapNone pat t) (pat := pat) (b := 0#3) (t := t) (by simp) he hnext

/-- Settles O29: S_CAP_OR_LOW's capture is in RESULT, and so in the key of the next fetch. -/
theorem sCapOrLowTick : Obligations.SCapOrLowTick := by
  intro s pat p t he hnext
  obtain ⟨u, hx, hresult, hrest⟩ := exec_shiftDesc_frame (i := .sCapOrLow pat t) (pat := pat)
    (b := 0#3) (t := t) (by simp) he (by rwa [key_perform_sCapOrLow])
  refine ⟨u, hx, ?_, hrest⟩
  simpa [perform, captureOrLow, State.result, resultCapOrLow] using hresult

/-- Settles O30: S_CAP_BIT's capture is in RESULT, and so in the key of the next fetch. -/
theorem sCapBitTick : Obligations.SCapBitTick := by
  intro s pat p b t he hnext
  obtain ⟨u, hx, hresult, hrest⟩ := exec_shiftDesc_frame (i := .sCapBit pat b t) (pat := pat)
    (b := b) (t := t) (by simp) he (by rwa [key_perform_sCapBit])
  refine ⟨u, hx, ?_, hrest⟩
  simpa [perform, captureBit, State.result, resultCapBit] using hresult

end Sys2Proof.Machine
end

section
/-! What surrounds the instruction of a step (rules R58, R59, R107 to R109, R112), and whom SHIFT_POLL
blocks (rule R180). -/

namespace Sys2Proof.Machine

/-! ### The start of a step -/

/-- What a Host step takes of the Host's lines (rule R58). -/
theorem passLine_place (s : State) : (passLine s).host.regs = s.host.regs ∧
    (passLine s).host.prog = s.host.prog ∧
    (∀ op rest, s.host.micro = op :: rest →
      (passLine s).host.micro = rest ∧ (passLine s).host.pc = s.host.pc) ∧
    (s.host.micro = [] →
      (passLine s).host.micro = [] ∧ (passLine s).host.pc = s.host.pc + 1) := by
  unfold passLine
  split <;> simp_all

theorem enterHost_inputs (s : State) : (enterHost s).inputs =
    { s.inputs with gaps := s.inputs.gaps.tail, fresh := s.inputs.fresh + 1 } := by
  simp [enterHost, useGap]

/-- Without a transfer of Level A to complete, a tick takes one latency and leaves the backend. -/
theorem enterTick_inputs {s : State} (h : s.cfg.level = .timed ∨ s.cfg.engine = .timer) :
    enterTick s = useLat (disarm s) :=
  h.elim enterTick_timed enterTick_timer

/-- Settles O34: a tick is consumed with its latency, and in Level A its transfer completed with a byte;
a Host step passes its line with a gap. -/
theorem stepEntry : Obligations.StepEntry := by
  intro s
  obtain ⟨hregs, hprog, hmicro, hpc⟩ := passLine_place (useGap s)
  refine ⟨by simp, fun h => ?_, fun hl he => ?_, ⟨by simp [onlyHostChanged], hregs, hprog, hmicro, hpc,
    ?_, enterHost_inputs s⟩, fun h => ?_, fun hl he => ?_, fun t h ht hh => ?_, fun h => ?_⟩
  · rw [enterTick_inputs h]; simp
  · rw [enterTick_untimed_shift hl he]
    simp [cellDrive, driveOfBit, completeUntimed, drawn_eq_headD, useLat, useByte]
  · simp [enterHost, hostGap, drawn_eq_headD]
  · rw [enterTick_inputs h]; rfl
  · rw [enterTick_untimed_shift hl he]; rfl
  · simp only [settleTie, ht, hh]; rfl
  · unfold settleTie
    obtain h | h := h <;> rw [h]
    cases hostTime s <;> rfl

/-- Settles O37: a latency is a draw cut at L_MAX, and a tie's draw decides. -/
theorem latencyAndTiesAreFree : Obligations.LatencyAndTiesAreFree := by
  refine ⟨latency_le, fun s n rest hn => ?_, fun s t b rest hf hr hties ht hh => ?_⟩
  · simp only [latency, drawn]
    split_ifs with h0
    · omega
    · exact Nat.min_eq_left hn
  · rw [nextTurn_eq_agentTurn hf hr]
    simp [agentTurn, ht, hh, tieHost, hties, drawn]

/-- A tick starts with ARMED = 0, so that the trap's disarming changes nothing (rule R227). -/
theorem setArmed_enterTick (s : State) : (enterTick s).setArmed false = enterTick s := by
  conv_lhs => rw [← enterTick_armed s]
  rfl

/-- Settles O38: such a tick is the trap of the state at its start. -/
theorem trapWithoutDescriptor : Obligations.TrapWithoutDescriptor := by
  intro s h hl hn hf
  refine ⟨trap (enterTick (advanceTo h (settleTie s))), ?_, rfl, rfl, by simp, ?_, ?_⟩
  · rw [step_of_tick hl hn]
    simp only [tickStep, hf]
  · unfold hostBlocked
    split <;> simp
  · rw [trap_eq, setArmed_enterTick]
    rfl

/-! ### SHIFT_POLL -/

/-- A descriptor's tick leaves the Host. -/
theorem descriptorTicked_host {i : Instr} {s u : State} (h : descriptorTicked i s u) :
    u.host = s.host := by
  obtain ⟨-, rfl⟩ | ⟨-, -, d, rfl⟩ | ⟨-, -, c, p, -, -, rfl⟩ := h <;> simp

/-- Settles O41: a block reset and a tick leave the Host, whose own step is blocked. -/
theorem shiftPollBlocksHost : Obligations.ShiftPollBlocksHost := by
  refine ⟨fun s u he hr ht h => ?_, fun s h => ?_⟩
  · obtain ⟨hl, ⟨t, -, rfl⟩ | ⟨t, -, -, -, -, hrun⟩ | ⟨t, op, -, -, -, hb, -⟩⟩ := step_cases h
    · unfold resetStep
      split <;> simp
    · obtain ⟨-, rfl⟩ | ⟨c, i, table, is, -, -, htick⟩ := tickStep_cases (by simpa using hl) hrun
      · simp
      · simp [descriptorTicked_host htick]
    · simp [hostBlocked, he, hr, ht] at hb
  · unfold hostBlocked
    split
    · obtain hne | hr | ht := h
      · exact absurd ‹_› hne
      · simp [hr]
      · simp [ht]
    · rfl
    · rfl

end Sys2Proof.Machine
end

section
/-! A command and its ticks (rules R101 to R106, R111, R112, R115): on a legal configuration a tick that
finds a descriptor goes on, so a sequence takes as many ticks as its table has descriptors. -/

namespace Sys2Proof.Machine

/-! ### Ticks in a row -/

/-- Ticks go on from where the ticks before them have come. -/
theorem ticks_add {m : Nat} {s u : State} (h : ticks m s = .next u) (n : Nat) :
    ticks (m + n) s = ticks n u := by
  induction m generalizing s with
  | zero => cases h; rw [Nat.zero_add]
  | succ m ih =>
    obtain ⟨v, hv, hrest⟩ := ticks_succ_next h
    rw [Nat.add_right_comm, ticks, hv]
    exact ih hrest

theorem ticks_one (s : State) : ticks 1 s = tickOnce s := by
  rw [ticks]
  cases tickOnce s <;> rfl

/-- One tick more. -/
theorem ticks_succ {m : Nat} {s u v : State} (h : ticks m s = .next u) (ht : tickOnce u = .next v) :
    ticks (m + 1) s = .next v := by
  rw [ticks_add h, ticks_one, ht]

/-- The state in which the handler of the armed tick finds the machine (rules R107, R108). -/
def atHandler (s : State) : State := enterTick (advanceTo (due s (s.nextT + latency s)) s)

/-- A tick runs the descriptor that its handler fetches (rule R108). -/
theorem tickOnce_of_fetchDesc {s : State} {c : Code} {i : Instr}
    (hf : fetchDesc (atHandler s) = some c) (hd : decode c = .ok i) :
    tickOnce s = exec i (atHandler s) := tickStep_of_fetchDesc hf hd

/-- A tick without a descriptor traps (rule R112). -/
theorem tickOnce_of_none {s : State} (hf : fetchDesc (atHandler s) = none) :
    tickOnce s = .next (trap (atHandler s)) := by
  rw [atHandler] at hf
  simp only [tickOnce, tickStep, hf]
  rfl

section
variable (s : State)

@[simp] theorem atHandler_cfg : (atHandler s).cfg = s.cfg := by simp [atHandler]
@[simp] theorem atHandler_step : (atHandler s).step = s.step := by simp [atHandler]
@[simp] theorem atHandler_trapped : (atHandler s).trapped = s.trapped := by simp [atHandler]
@[simp] theorem atHandler_fault : (atHandler s).fault = s.fault := by simp [atHandler]
@[simp] theorem atHandler_armed : (atHandler s).armed = false := by simp [atHandler]
@[simp] theorem atHandler_nextT : (atHandler s).nextT = s.nextT := by simp [atHandler]
@[simp] theorem atHandler_txd : (atHandler s).txd = s.txd := by simp [atHandler]
@[simp] theorem atHandler_xferStart : (atHandler s).xferStart = s.xferStart := by simp [atHandler]

theorem fetchDesc_atHandler : fetchDesc (atHandler s) = lookupDesc s.cfg s.key s.prog.toNat := by
  simp [fetchDesc, State.key, State.prog]

end

/-! ### The command -/

/-- From CleanEntry a command is accepted, and its sequence is in flight (rules R101, R256). -/
theorem invariant_accept {s : State} (hs : cleanEntry s) (w : Byte) : Invariant (accept w s) := by
  obtain ⟨-, -, hd, hb, ht, -, hl⟩ := hs
  refine invariant_of_inFlight (by simp [State.ready]) (by simpa using ht) (by simp)
    (backendInStep_accept w hl hd hb) fun n hn => ?_
  obtain ⟨table, htab, rfl⟩ := Option.map_eq_some_iff.mp hn
  simpa [State.prog] using legalConfig_first hl (by simpa using htab)

/-- At the handler of the first tick after a command on a key without a table the line is released
(rules R153, R171, R186). -/
theorem atHandler_drive_no_table {s : State} (hs : cleanEntry s) (w : Byte)
    (hnone : lookupTable s.cfg (keyOf (issuedStep w)) = none) :
    (atHandler (accept w s)).drive = .rel := by
  obtain ⟨-, -, hd, hb, -, -, hl⟩ := hs
  by_cases he : s.cfg.engine = .timer
  · have hdrive := (advanceTo_idle (s := accept w s)
      (due (accept w s) ((accept w s).nextT + latency (accept w s)))
      (by simpa [accept_timer w he] using hb)).1
    rw [atHandler, enterTick_timer (by simpa using he)]
    simpa [accept_timer w he, hd] using hdrive
  · obtain ⟨-, -, -, hshift⟩ := accept_primed w s
    obtain ⟨-, -, -, -, -, htxd, -⟩ := hshift he
    obtain ⟨hback, hbusy⟩ := enterTick_backendInStep
      (r := (accept w s).nextT + latency (accept w s)) (backendInStep_accept w hl hd hb) (by omega)
    obtain ⟨-, hdone, -⟩ := (backendInStep_shift (by simpa using he)).mp hback
    have hpattern : (atHandler (accept w s)).txd = 0xFF#8 := by
      rw [atHandler_txd]
      exact htxd (by simpa [State.key] using hnone)
    exact (hdone hbusy).trans (congrArg (cellDrive · 7) hpattern)

/-- Settles O39: the key of RSVD has no table, so the first tick traps. -/
theorem reservedOperationTraps : Obligations.ReservedOperationTraps := by
  intro s hs
  obtain ⟨hr, -, -, -, -, hf, hl⟩ := id hs
  have hnone : lookupTable s.cfg (keyOf (issuedStep 0x60#8)) = none := by
    by_contra htable
    obtain ⟨table, htable⟩ := Option.ne_none_iff_exists'.mp htable
    obtain ⟨is, htab⟩ := legalConfig_table hl htable
    exact absurd htab.mem (by decide)
  have hfetch : fetchDesc (atHandler (accept 0x60#8 s)) = none := by
    simp [fetchDesc_atHandler, lookupDesc, State.key, hnone]
  refine ⟨accept 0x60#8 s, trap (atHandler (accept 0x60#8 s)), congrArg _ (issue_ready _ hr),
    tickOnce_of_none hfetch, ?_, by simp, by simp, ?_, by simpa using hf⟩
  · rw [trap_eq, State.setTrapped_step, State.setArmed_step, atHandler_step, accept_step]
    decide
  · simpa using atHandler_drive_no_table hs 0x60#8 hnone

/-! ### A tick that finds a descriptor goes on -/

section
variable {s : State} {c : Code} {i : Instr} {table : List Code} {is : List Instr}

/-- A descriptor without T has a next one in its table (rule R117 condition 3). -/
theorem Fetched.next_desc (hf : Fetched s c i table is) (ht : isTerminal i = false) :
    ∃ c' i', lookupDesc s.cfg (perform i s).key (s.prog + 1#4).toNat = some c' ∧
      legalDesc s.cfg.engine c' = some i' := by
  have hlt : s.prog.toNat + 1 < table.length := by
    have hne : s.prog.toNat + 1 ≠ is.length := by simp [← hf.isTerminal_iff, ht]
    have hlt := hf.prog_lt
    have hlen := hf.length
    omega
  obtain ⟨i', -, hi'⟩ := (mapM_some hf.legal.mapm).2 _ _ (List.getElem?_eq_getElem hlt)
  have hkey : (perform i s).key = s.key := hf.key_perform
  refine ⟨_, i', ?_, hi'⟩
  rw [lookupDesc, hkey, hf.lookup, hf.prog_succ]
  exact List.getElem?_eq_getElem hlt

/-- A fetched descriptor of a legal table is never refused (rule R117). -/
theorem Fetched.runs (hf : Fetched s c i table is) : ∃ u, exec i s = .next u := by
  obtain ⟨-, hwf, ⟨he, w, -, hw⟩ | ⟨he, w, -, hw⟩⟩ := legalDesc_spec hf.desc
  · obtain ⟨d, t, hd, hi⟩ := decodeTimer_forms hw hwf
    exact ⟨_, (exec_timerDesc d t s i (by simpa using hi)).trans (runTimer_runs _ he hd)⟩
  · obtain ⟨b, p, t, hi⟩ : ∃ b p t, i ∈ [Instr.sCapNone p t, .sCapOrLow p t, .sCapBit p b t] := by
      obtain ⟨p, t, -, rfl | rfl | ⟨b, rfl⟩⟩ := decodeShift_forms hw hwf
      · exact ⟨0#3, p, t, by simp⟩
      · exact ⟨0#3, p, t, by simp⟩
      · exact ⟨b, p, t, by simp⟩
    have hterminal : isTerminal i = t := by
      simp only [List.mem_cons, List.not_mem_nil, or_false] at hi
      obtain rfl | rfl | rfl := hi <;> rfl
    rw [exec_shiftDesc p b t s i hi]
    cases t with
    | true => exact ⟨_, by rw [runShift_eq _ _ he, if_pos rfl]⟩
    | false =>
      obtain ⟨c', i', hc', hi'⟩ := hf.next_desc hterminal
      obtain ⟨-, -, ⟨htimer, -⟩ | ⟨-, w', rfl, -⟩⟩ := legalDesc_spec hi'
      · exact absurd htimer he
      · exact ⟨_, runShift_continues i he hc' rfl⟩

/-- After a fetched descriptor the key is as before and PROG one on, and READY is set by the last one
only (rules R25, R110). -/
theorem Fetched.ticked (hf : Fetched s c i table is) {u : State} (h : descriptorTicked i s u) :
    u.key = s.key ∧ u.prog.toNat = s.prog.toNat + 1 ∧ u.trapped = s.trapped ∧ u.fault = s.fault ∧
      u.ready = (decide (s.prog.toNat + 1 = is.length) || s.ready) := by
  have hlast : decide (s.prog.toNat + 1 = is.length) = isTerminal i := by
    rw [onlyLastTerminal_at hf.legal.last _ _ hf.instr]
  rw [hlast, ← hf.key_advanced, ← hf.prog_advanced]
  obtain ⟨ht, rfl⟩ | ⟨ht, -, d, rfl⟩ | ⟨ht, -, c, p, -, -, rfl⟩ := h <;>
    simp [ht, State.ready, State.key, State.prog]

end

/-- The sequence of the command `w` from `s`, `n` descriptors long, after `k` ticks. -/
structure SequenceAt (s : State) (w : Byte) (n k : Nat) (u : State) : Prop where
  cfg : u.cfg = s.cfg
  key : u.key = keyOf (issuedStep w)
  prog : u.prog.toNat = k
  ready : u.ready = decide (k = n)
  trapped : u.trapped = false
  fault : u.fault = .none
  inv : Invariant u

section
variable {s : State} {w : Byte} {n : Nat}

theorem sequenceAt_accept (hs : cleanEntry s)
    (hn : stepCount s.cfg (keyOf (issuedStep w)) = some n) : SequenceAt s w n 0 (accept w s) := by
  obtain ⟨-, -, -, -, ht, hf, hl⟩ := id hs
  obtain ⟨table, htab, rfl⟩ := Option.map_eq_some_iff.mp hn
  have hpos : ¬ 0 = table.length := (legalConfig_first hl htab).ne
  exact ⟨by simp, by simp [State.key], by simp [State.prog], by simp [State.ready, hpos],
    by simpa using ht, by simpa using hf, invariant_accept hs w⟩

/-- Short of its last descriptor a sequence goes on with a tick (rule R108). -/
theorem SequenceAt.tick {k : Nat} {u : State} (hu : SequenceAt s w n k u)
    (hl : legalConfig s.cfg = true) (hn : stepCount s.cfg (keyOf (issuedStep w)) = some n)
    (hk : k < n) : ∃ v, tickOnce u = .next v ∧ SequenceAt s w n (k + 1) v := by
  have hlu : legalConfig u.cfg = true := hu.cfg ▸ hl
  have hready : u.ready = false := by rw [hu.ready, decide_eq_false hk.ne]
  obtain ⟨harm, -, -⟩ := (hu.inv hu.fault).2.2 hready hu.trapped
  obtain ⟨table, htab, rfl⟩ := Option.map_eq_some_iff.mp hn
  have hfetch : fetchDesc (atHandler u) = some table[k] := by
    rw [fetchDesc_atHandler, hu.cfg, hu.key, hu.prog, lookupDesc, htab]
    exact List.getElem?_eq_getElem hk
  obtain ⟨table', is, i, hlook, hlegal, hi, -, hdesc, hlen⟩ :=
    fetchDesc_legal (by simpa using hlu) hfetch
  have hf : Fetched (atHandler u) table[k] i table' is := ⟨hlook, hlegal, hi, hdesc, hlen⟩
  obtain ⟨v, hv⟩ := hf.runs
  have htick : tickOnce u = .next v :=
    (tickOnce_of_fetchDesc hfetch (legalDesc_spec hdesc).1).trans hv
  have hsame : table' = table := by
    have hkey : (atHandler u).key = keyOf (issuedStep w) := by simpa [State.key] using hu.key
    rw [hkey, atHandler_cfg, hu.cfg, htab] at hlook
    exact (Option.some.inj hlook).symm
  obtain ⟨hkey, hprog, htrap, hfault, hready'⟩ := hf.ticked (exec_legalDesc hdesc hv)
  have hat : (atHandler u).key = u.key ∧ (atHandler u).prog = u.prog ∧
      (atHandler u).ready = u.ready := by simp [State.key, State.prog, State.ready]
  obtain ⟨hatKey, hatProg, hatReady⟩ := hat
  refine ⟨v, htick, (tickOnce_cfg htick).trans hu.cfg, ?_, ?_, ?_, ?_, ?_,
    invariant_tickStep hlu hu.inv hu.fault harm (by omega) htick⟩
  · rw [hkey, hatKey, hu.key]
  · rw [hprog, hatProg, hu.prog]
  · rw [hready', hatProg, hatReady, hu.prog, hready, Bool.or_false, hlen, hsame]
  · simpa [htrap] using hu.trapped
  · simpa [hfault] using hu.fault

/-- Every number of ticks up to the step count goes on. -/
theorem ticks_sequenceAt (hs : cleanEntry s)
    (hn : stepCount s.cfg (keyOf (issuedStep w)) = some n) :
    ∀ k ≤ n, ∃ u, ticks k (issue w s) = .next u ∧ SequenceAt s w n k u := by
  obtain ⟨hr, -, -, -, -, -, hl⟩ := id hs
  intro k hk
  induction k with
  | zero => exact ⟨_, congrArg _ (issue_ready w hr), sequenceAt_accept hs hn⟩
  | succ k ih =>
    obtain ⟨u, hticks, hu⟩ := ih (by omega)
    obtain ⟨v, htick, hv⟩ := hu.tick hl hn hk
    exact ⟨v, ticks_succ hticks htick, hv⟩

end

/-- Settles O49: each of the sequence's ticks goes on, and the last of them sets READY. -/
theorem sequenceTakesNTicks : Obligations.SequenceTakesNTicks := by
  intro s w n hs hn k hk
  obtain ⟨u, hticks, hu⟩ := ticks_sequenceAt hs hn k hk
  refine ⟨u, hticks, hu.prog, hu.ready, ?_, hu.trapped, hu.fault⟩
  obtain ⟨hrest, -, hflight⟩ := hu.inv hu.fault
  by_cases hend : k = n
  · obtain ⟨harm, -⟩ := hrest (by rw [hu.ready, decide_eq_true hend])
    simp [harm, hend]
  · obtain ⟨harm, -⟩ := hflight (by rw [hu.ready, decide_eq_false hend]) hu.trapped
    simp [harm, lt_of_le_of_ne hk hend]

end Sys2Proof.Machine
end

section
/-! O9 (rule R117): a table that meets the conditions is the words of its instructions, so that each
condition on words is one on instructions. -/

namespace Sys2Proof.Machine

/-! ### A table's words and its instructions -/

/-- A legal descriptor is the word of its instruction (rules R72, R73). -/
theorem encode_of_legalDesc {e : Engine} {c : Code} {i : Instr} (h : legalDesc e c = some i) :
    encode i = c := by
  obtain ⟨-, -, ⟨-, w, rfl, hw⟩ | ⟨-, w, rfl, hw⟩⟩ := legalDesc_spec h
  · exact encode_of_decodeTimer hw
  · exact encode_of_decodeShift hw

/-- A descriptor is legal exactly where its word is (rules R79, R80, R117 condition 4). -/
theorem legalDesc_isSome_iff {e : Engine} {c : Code} :
    (legalDesc e c).isSome = true ↔ legalWord e c := by
  cases c with
  | tdesc w =>
    by_cases he : e = .timer
    · subst he
      simp only [legalDesc_tdesc_isSome, decodeTimer_wellFormed_iff, legalWord, true_and]
    · cases e <;> simp_all [legalDesc, legalWord]
  | sdesc w =>
    by_cases he : e = .timer
    · subst he
      simp [legalDesc, legalWord]
    · simp only [legalDesc_sdesc_isSome he, decodeShift_wellFormed_iff, legalWord, he, Ne,
        not_false_eq_true, true_and]
  | cmd w | stat rd | pseudo p reg => simp [legalDesc, legalWord]

/-- The instructions `is` of an engine's own descriptors. -/
def descriptorsOf (e : Engine) (is : List Instr) : Prop :=
  ∀ i ∈ is, legalDesc e (encode i) = some i

/-- A table of legal descriptors is the words of its instructions. -/
theorem mapM_legalDesc_iff {e : Engine} {table : List Code} {is : List Instr} :
    table.mapM (legalDesc e) = some is ↔ table = is.map encode ∧ descriptorsOf e is := by
  induction table generalizing is with
  | nil => cases is <;> simp [descriptorsOf]
  | cons c table ih =>
    simp only [List.mapM_cons, Option.bind_eq_bind, Option.bind_eq_some_iff, Option.pure_def,
      Option.some.injEq, ih]
    constructor
    · rintro ⟨i, hi, is', ⟨rfl, his⟩, rfl⟩
      obtain rfl := encode_of_legalDesc hi
      exact ⟨rfl, List.forall_mem_cons.mpr ⟨hi, his⟩⟩
    · rintro ⟨htable, his⟩
      cases is with
      | nil => cases htable
      | cons i is' =>
        obtain ⟨rfl, rfl⟩ := List.cons.inj htable
        obtain ⟨hi, his⟩ := List.forall_mem_cons.mp his
        exact ⟨i, hi, is', ⟨rfl, his⟩, rfl⟩

/-- A table of legal words has its instructions. -/
theorem exists_mapM_legalDesc {e : Engine} {table : List Code}
    (h : ∀ c ∈ table, legalWord e c) : ∃ is, table.mapM (legalDesc e) = some is := by
  induction table with
  | nil => exact ⟨[], rfl⟩
  | cons c table ih =>
    obtain ⟨hc, htable⟩ := List.forall_mem_cons.mp h
    obtain ⟨i, hi⟩ := Option.isSome_iff_exists.mp (legalDesc_isSome_iff.mpr hc)
    obtain ⟨is, his⟩ := ih htable
    exact ⟨i :: is, by simp [List.mapM_cons, hi, his]⟩

/-! ### The fields of a descriptor, as its word has them -/

/-- The field ACT of a timer descriptor (rule R72). -/
def actOf : Instr → Option (BitVec 3)
  | .tHold _ _ => some 0#3
  | .tDriveLow _ _ => some 1#3
  | .tRelease _ _ => some 2#3
  | .tSampleSet _ _ => some 3#3
  | .tSampleOr _ _ => some 4#3
  | _ => none

/-- The field CAP of a shift descriptor (rule R73). -/
def capOf : Instr → Option (BitVec 2)
  | .sCapNone _ _ => some 0#2
  | .sCapOrLow _ _ => some 1#2
  | .sCapBit _ _ _ => some 2#2
  | _ => none

section
variable {i : Instr} (h : i.wellFormed = true)
include h

theorem wordT_encode : wordT (encode i) = isTerminal i := by
  cases i with
  | tHold | tDriveLow | tRelease | tSampleSet | tSampleOr => exact timerWord_t ..
  | sCapNone | sCapOrLow | sCapBit => exact shiftWord_t ..
  | tRsvd5 | tRsvd6 | sRsvd => cases h
  | _ => rfl

theorem wordAct_encode : wordAct (encode i) = actOf i := by
  cases i with
  | tHold | tDriveLow | tRelease | tSampleSet | tSampleOr => exact congrArg some (timerWord_act ..)
  | tRsvd5 | tRsvd6 => cases h
  | _ => rfl

theorem wordCap_encode : wordCap (encode i) = capOf i := by
  cases i with
  | sCapNone | sCapOrLow | sCapBit => exact congrArg some (shiftWord_cap ..)
  | sRsvd => cases h
  | _ => rfl

/-- SAMPLE_SET and CAP_BIT set RESULT from the line (rule R117 condition 8). -/
theorem setsResult_eq : setsResult i =
    (wordAct (encode i) == some 3#3 || wordCap (encode i) == some 2#2) := by
  rw [wordAct_encode h, wordCap_encode h]
  cases i <;> rfl

/-- Those, SAMPLE_OR and CAP_OR_LOW write RESULT (rule R117 condition 9). -/
theorem writesResult_eq_false_iff : writesResult i = false ↔
    wordAct (encode i) ≠ some 3#3 ∧ wordAct (encode i) ≠ some 4#3 ∧
      wordCap (encode i) ≠ some 1#2 ∧ wordCap (encode i) ≠ some 2#2 := by
  rw [wordAct_encode h, wordCap_encode h]
  cases i <;> simp [writesResult, actOf, capOf]

end

theorem descriptorsOf.wellFormed {e : Engine} {is : List Instr} (h : descriptorsOf e is) :
    ∀ i ∈ is, i.wellFormed = true := fun i hi => (legalDesc_spec (h i hi)).2.1

/-! ### The conditions on one table -/

/-- Condition 3: T = 1 on the last descriptor and on no other. -/
theorem onlyLastTerminal_iff {is : List Instr} (hne : is ≠ []) : onlyLastTerminal is = true ↔
    ∀ (n : Nat) (i : Instr), is[n]? = some i → isTerminal i = decide (n + 1 = is.length) := by
  refine ⟨onlyLastTerminal_at, fun h => ?_⟩
  induction is with
  | nil => exact absurd rfl hne
  | cons a rest ih =>
    cases rest with
    | nil => exact h 0 a rfl
    | cons b rest =>
      have ha : isTerminal a = false := by simpa using h 0 a rfl
      have hrest := ih (by simp) fun n i hi => by simpa using h (n + 1) i hi
      simp [onlyLastTerminal, ha, hrest]

/-- Every entry with `P` has a later one with `Q`. -/
def followed {α : Type} (P Q : α → Prop) (l : List α) : Prop :=
  ∀ (n : Nat) (a : α), l[n]? = some a → P a → ∃ (m : Nat) (b : α), n < m ∧ l[m]? = some b ∧ Q b

theorem followed_cons {α : Type} {P Q : α → Prop} {a : α} {l : List α} :
    followed P Q (a :: l) ↔ (P a → ∃ b ∈ l, Q b) ∧ followed P Q l := by
  constructor
  · refine fun h => ⟨fun ha => ?_, fun n b hb hP => ?_⟩
    · obtain ⟨m, b, hm, hb, hQ⟩ := h 0 a rfl ha
      obtain ⟨m, rfl⟩ := Nat.exists_eq_succ_of_ne_zero hm.ne'
      exact ⟨b, List.mem_of_getElem? hb, hQ⟩
    · obtain ⟨m, c, hm, hc, hQ⟩ := h (n + 1) b hb hP
      obtain ⟨m, rfl⟩ := Nat.exists_eq_succ_of_ne_zero (Nat.ne_zero_of_lt hm)
      exact ⟨m, c, by omega, hc, hQ⟩
  · rintro ⟨hhead, htail⟩ n b hb hP
    cases n with
    | zero =>
      obtain rfl : a = b := by simpa using hb
      obtain ⟨c, hc, hQ⟩ := hhead hP
      obtain ⟨m, hm⟩ := List.getElem?_of_mem hc
      exact ⟨m + 1, c, by omega, hm, hQ⟩
    | succ n =>
      obtain ⟨m, c, hm, hc, hQ⟩ := htail n b hb hP
      exact ⟨m + 1, c, by omega, hc, hQ⟩

/-- Condition 6: the line ends released where each DRIVE_LOW has a later RELEASE, and a line that was
low before the table has a RELEASE in it. -/
theorem releasedAfter_iff {is : List Instr} (hwf : ∀ i ∈ is, i.wellFormed = true) (r : Bool) :
    releasedAfter r is = true ↔
      followed (wordAct · = some 1#3) (wordAct · = some 2#3) (is.map encode) ∧
        (r = true ∨ ∃ c ∈ is.map encode, wordAct c = some 2#3) := by
  induction is generalizing r with
  | nil => simp [releasedAfter, followed]
  | cons i is ih =>
    obtain ⟨hi, his⟩ := List.forall_mem_cons.mp hwf
    rw [List.map_cons, followed_cons, List.exists_mem_cons_iff, wordAct_encode hi]
    cases i with
    | tDriveLow =>
      simp only [releasedAfter, ih his, actOf]
      simp
      tauto
    | _ => simp [releasedAfter, ih his, actOf]

/-- What conditions 2, 3, 4, 6 and 7 say of a table's instructions. -/
theorem legalTable_eq_some_iff {e : Engine} {table : List Code} {is : List Instr} :
    legalTable e table = some is ↔ table.mapM (legalDesc e) = some is ∧ 1 ≤ is.length ∧
      is.length ≤ 15 ∧ onlyLastTerminal is = true ∧ endsReleased e is = true := by
  rw [legalTable]
  cases table.mapM (legalDesc e) with
  | none => simp
  | some is' =>
    dsimp only
    split
    next h => exact ⟨fun heq => ⟨heq, Option.some.inj heq ▸ h⟩, And.left⟩
    next h => exact ⟨nofun, fun ⟨heq, hlegal⟩ => absurd (Option.some.inj heq ▸ hlegal) h⟩

/-- Conditions 6 and 7 say that the line is released at the end of the sequence. -/
theorem endsReleased_iff {e : Engine} {is : List Instr} (his : descriptorsOf e is)
    (hne : is ≠ []) : endsReleased e is = true ↔
      (e = .timer → followed (wordAct · = some 1#3) (wordAct · = some 2#3) (is.map encode)) ∧
      (e ≠ .timer → ∀ c p, (is.map encode).getLast? = some c → patOf c = some p →
        p.getLsbD 0 = true) := by
  by_cases he : e = .timer
  · subst he
    simp [endsReleased, releasedAfter_iff his.wellFormed]
  · have hends : endsReleased e is = lastPatReleases is := by cases e <;> simp_all [endsReleased]
    have hlast := List.getLast?_eq_some_getLast hne
    have hdesc := his _ (List.getLast_mem hne)
    obtain ⟨-, -, ⟨htimer, -⟩ | ⟨-, w, hw, -⟩⟩ := legalDesc_spec hdesc
    · exact absurd htimer he
    · have hpat : patOf (encode (is.getLast hne)) = some (w.extractLsb' 0 8) := by rw [hw]; rfl
      rw [hends, lastPatReleases_eq hdesc he hpat hlast, List.getLast?_map, hlast]
      refine ⟨fun h => ⟨fun htimer => absurd htimer he, fun _ c p hc hp => ?_⟩, fun h => ?_⟩
      · cases hc
        rwa [← Option.some.inj (hpat.symm.trans hp)]
      · exact h.2 he _ _ rfl hpat

/-- A table meets the conditions on one table exactly where its words do (rule R117). -/
theorem rule117Table_iff {e : Engine} {table : List Code} :
    rule117Table e table ↔ ∃ is, legalTable e table = some is := by
  simp only [legalTable_eq_some_iff, mapM_legalDesc_iff]
  constructor
  · rintro ⟨⟨hpos, hle⟩, hlast, hwords, hreleased⟩
    obtain ⟨is, hmap⟩ := exists_mapM_legalDesc hwords
    obtain ⟨rfl, his⟩ := mapM_legalDesc_iff.mp hmap
    rw [List.length_map] at hpos hle hlast
    have hne : is ≠ [] := List.ne_nil_of_length_pos hpos
    refine ⟨is, ⟨rfl, his⟩, hpos, hle, (onlyLastTerminal_iff hne).mpr fun n i hi => ?_,
      (endsReleased_iff his hne).mpr hreleased⟩
    rw [← wordT_encode (his.wellFormed i (List.mem_of_getElem? hi))]
    exact hlast n _ (by simp [hi])
  · rintro ⟨is, ⟨rfl, his⟩, hpos, hle, hlast, hreleased⟩
    have hne : is ≠ [] := List.ne_nil_of_length_pos hpos
    refine ⟨by simpa using ⟨hpos, hle⟩, fun n c hc => ?_, fun c hc => ?_,
      (endsReleased_iff his hne).mp hreleased⟩
    · obtain ⟨i, hi, rfl⟩ : ∃ i, is[n]? = some i ∧ encode i = c := by simpa using hc
      rw [wordT_encode (his.wellFormed i (List.mem_of_getElem? hi)), List.length_map]
      exact onlyLastTerminal_at hlast n i hi
    · obtain ⟨i, hi, rfl⟩ := List.mem_map.mp hc
      exact legalDesc_isSome_iff.mp (by rw [his i hi]; rfl)

/-! ### The conditions on the four tables -/

theorem legalTableAt_eq_some_iff {cfg : Config} {key : Key} {is : List Instr} :
    legalTableAt cfg key = some is ↔
      ∃ table, lookupTable cfg key = some table ∧ legalTable cfg.engine table = some is := by
  rw [legalTableAt]
  cases lookupTable cfg key <;> simp

/-- The keys of rule R74. -/
def tableKeys : List Key := [keyReset, keyRead, keyWrite0, keyWrite1]

/-- Conditions 5, 8 and 9, on the instructions of the four tables. -/
def tablesAgree (reset read write0 write1 : List Instr) : Prop :=
  read.length < reset.length ∧ write0.length = read.length ∧ write1.length = read.length ∧
    read.countP setsResult = 1 ∧ (∀ i ∈ write0, writesResult i = false) ∧
    ∀ i ∈ write1, writesResult i = false

/-- What the decision `legalConfig` decides. -/
theorem legalConfig_iff {cfg : Config} : legalConfig cfg = true ↔
    ∃ reset read write0 write1, legalTableAt cfg keyReset = some reset ∧
      legalTableAt cfg keyRead = some read ∧ legalTableAt cfg keyWrite0 = some write0 ∧
      legalTableAt cfg keyWrite1 = some write1 ∧ cfg.tables.length = 4 ∧
      (∀ e ∈ cfg.tables, e.1 ∈ tableKeys) ∧ tablesAgree reset read write0 write1 := by
  rw [legalConfig]
  split
  · rename_i reset read write0 write1 h0 h1 h2 h3
    simp [h0, h1, h2, h3, tablesAgree, tableKeys, and_assoc]
  · rename_i hnone
    exact ⟨nofun, fun ⟨_, _, _, _, h0, h1, h2, h3, _⟩ => (hnone _ _ _ _ h0 h1 h2 h3).elim⟩

/-- A key has a table exactly where it is the key of an entry. -/
theorem lookupTable_isSome_iff {cfg : Config} {key : Key} :
    (lookupTable cfg key).isSome = true ↔ ∃ e ∈ cfg.tables, e.1 = key := by
  rw [lookupTable, List.lookup_isSome_iff]
  exact exists_congr fun e => and_congr_right fun _ => beq_iff_eq.trans eq_comm

/-- Condition 8 counts the same on words as on their instructions. -/
theorem countP_setsResult {e : Engine} {is : List Instr} (his : descriptorsOf e is) :
    (is.map encode).countP (fun c => wordAct c == some 3#3 || wordCap c == some 2#2) =
      is.countP setsResult := by
  rw [List.countP_map]
  refine List.countP_congr fun i hi => ?_
  rw [setsResult_eq (his.wellFormed i hi)]
  rfl

/-- Condition 9 says the same of words as of their instructions. -/
theorem forall_writesResult {e : Engine} {is : List Instr} (his : descriptorsOf e is) :
    (∀ c ∈ is.map encode, wordAct c ≠ some 3#3 ∧ wordAct c ≠ some 4#3 ∧ wordCap c ≠ some 1#2 ∧
      wordCap c ≠ some 2#2) ↔ ∀ i ∈ is, writesResult i = false := by
  rw [List.forall_mem_map]
  exact forall₂_congr fun i hi => (writesResult_eq_false_iff (his.wellFormed i hi)).symm

/-- A legal table is the words of its instructions, and meets the conditions on one table. -/
theorem lookupTable_of_legalTableAt {cfg : Config} {key : Key} {is : List Instr}
    (h : legalTableAt cfg key = some is) :
    lookupTable cfg key = some (is.map encode) ∧ descriptorsOf cfg.engine is ∧
      rule117Table cfg.engine (is.map encode) := by
  obtain ⟨table, hlook, hlegal⟩ := legalTableAt_eq_some_iff.mp h
  obtain ⟨rfl, his⟩ := mapM_legalDesc_iff.mp (legalTable_eq_some_iff.mp hlegal).1
  exact ⟨hlook, his, rule117Table_iff.mpr ⟨is, hlegal⟩⟩

/-- With a legal table for each of the four keys, the rest of conditions 1 and 2 is that no entry has
another key. -/
theorem keys_iff_of_tables {cfg : Config}
    (h : ∀ key ∈ tableKeys, ∃ is, legalTableAt cfg key = some is) :
    ((∀ key, (lookupTable cfg key).isSome = true ↔ key ∈ tableKeys) ∧
      ∀ key table, lookupTable cfg key = some table → rule117Table cfg.engine table) ↔
    ∀ e ∈ cfg.tables, e.1 ∈ tableKeys := by
  refine ⟨fun ⟨hkeys, _⟩ e he => (hkeys e.1).mp (lookupTable_isSome_iff.mpr ⟨e, he, rfl⟩),
    fun hentries => ?_⟩
  have hkeys : ∀ key, (lookupTable cfg key).isSome = true ↔ key ∈ tableKeys := by
    refine fun key => ⟨fun hsome => ?_, fun hkey => ?_⟩
    · obtain ⟨e, he, rfl⟩ := lookupTable_isSome_iff.mp hsome
      exact hentries e he
    · obtain ⟨is, his⟩ := h key hkey
      simp [(lookupTable_of_legalTableAt his).1]
  refine ⟨hkeys, fun key table hlook => ?_⟩
  obtain ⟨is, his⟩ := h key ((hkeys key).mp (by simp [hlook]))
  obtain ⟨hlook', -, htable⟩ := lookupTable_of_legalTableAt his
  rwa [← Option.some.inj (hlook'.symm.trans hlook)]

/-- With a legal table for each of the four keys, the conditions left are on the keys and on the tables
together. -/
theorem rule117_iff_of_tables {cfg : Config} {reset read write0 write1 : List Instr}
    (h0 : legalTableAt cfg keyReset = some reset) (h1 : legalTableAt cfg keyRead = some read)
    (h2 : legalTableAt cfg keyWrite0 = some write0) (h3 : legalTableAt cfg keyWrite1 = some write1) :
    rule117 cfg ↔ (∀ e ∈ cfg.tables, e.1 ∈ tableKeys) ∧ tablesAgree reset read write0 write1 := by
  have htables : ∀ key ∈ tableKeys, ∃ is, legalTableAt cfg key = some is := by
    simp [tableKeys, h0, h1, h2, h3]
  obtain ⟨l0, -, -⟩ := lookupTable_of_legalTableAt h0
  obtain ⟨l1, d1, -⟩ := lookupTable_of_legalTableAt h1
  obtain ⟨l2, d2, -⟩ := lookupTable_of_legalTableAt h2
  obtain ⟨l3, d3, -⟩ := lookupTable_of_legalTableAt h3
  rw [← keys_iff_of_tables htables, rule117, and_assoc]
  refine and_congr_right fun _ => and_congr_right fun _ => ?_
  simp only [stepCount_of_lookup l0, stepCount_of_lookup l1, stepCount_of_lookup l2,
    stepCount_of_lookup l3, Option.some.injEq, List.length_map]
  constructor
  · rintro ⟨⟨n1, n2, rfl, rfl, hlen0, hlen1, hlt⟩, hset, hwrite⟩
    exact ⟨hlt, hlen0, hlen1, (countP_setsResult d1).symm.trans (hset _ l1),
      (forall_writesResult d2).mp (hwrite _ _ (.inl rfl) l2),
      (forall_writesResult d3).mp (hwrite _ _ (.inr rfl) l3)⟩
  · rintro ⟨hlt, hlen0, hlen1, hset, hwrite0, hwrite1⟩
    refine ⟨⟨_, _, rfl, rfl, hlen0, hlen1, hlt⟩, fun table ht => ?_, fun key table hkey ht => ?_⟩
    · rw [← Option.some.inj (l1.symm.trans ht), countP_setsResult d1, hset]
    · obtain rfl | rfl := hkey
      · rw [← Option.some.inj (l2.symm.trans ht)]
        exact (forall_writesResult d2).mpr hwrite0
      · rw [← Option.some.inj (l3.symm.trans ht)]
        exact (forall_writesResult d3).mpr hwrite1

/-- Conditions 1 and 2 give each of the four keys a legal table. -/
theorem legalTableAt_of_rule117 {cfg : Config} (h : rule117 cfg) :
    ∀ key ∈ tableKeys, ∃ is, legalTableAt cfg key = some is := by
  obtain ⟨hkeys, htables, -⟩ := h
  intro key hkey
  obtain ⟨table, hlook⟩ := Option.isSome_iff_exists.mp ((hkeys key).mpr hkey)
  obtain ⟨is, his⟩ := rule117Table_iff.mp (htables key table hlook)
  exact ⟨is, legalTableAt_eq_some_iff.mpr ⟨table, hlook, his⟩⟩

/-- Settles O9: the decision and the rule agree on each table, and then on the tables together. -/
theorem legalConfigIsRule117 : Obligations.LegalConfigIsRule117 := by
  refine ⟨fun cfg => ?_, fun s hl => by simp [step, runStep, hl]⟩
  rw [legalConfig_iff]
  constructor
  · rintro ⟨reset, read, write0, write1, h0, h1, h2, h3, hfour, hrest⟩
    exact ⟨(rule117_iff_of_tables h0 h1 h2 h3).mpr hrest, hfour⟩
  · rintro ⟨hrule, hfour⟩
    have htables := legalTableAt_of_rule117 hrule
    simp only [tableKeys, List.forall_mem_cons] at htables
    obtain ⟨⟨reset, h0⟩, ⟨read, h1⟩, ⟨write0, h2⟩, ⟨write1, h3⟩, -⟩ := htables
    exact ⟨reset, read, write0, write1, h0, h1, h2, h3, hfour,
      (rule117_iff_of_tables h0 h1 h2 h3).mp hrule⟩

end Sys2Proof.Machine
end

section
/-! What the ticks of a Level B sequence leave for an observer (rules R53, R54, R118): the latencies they
take, the record of the slot, and pulls that are never taken back. -/

namespace Sys2Proof.Machine

/-! ### Draws of latency -/

/-- The latency of the tick after `k` others that have each taken one (rule R107). -/
def nthLatency (s : State) (k : Nat) : Nat :=
  if s.cfg.lMax = 0 then 0
  else min (s.inputs.lats.getD k (Config.freeLatency (s.inputs.fresh + k))) s.cfg.lMax

theorem nthLatency_le (s : State) (k : Nat) : nthLatency s k ≤ s.cfg.lMax := by
  rw [nthLatency]
  split
  · exact Nat.zero_le _
  · exact Nat.min_le_right _ _

/-- The draws after `k` ticks that have each taken a latency and nothing else. -/
def latsUsed (k : Nat) (i : Inputs) : Inputs := { i with lats := i.lats.drop k, fresh := i.fresh + k }

@[simp] theorem latsUsed_zero (i : Inputs) : latsUsed 0 i = i := rfl

theorem useLat_latsUsed {s u : State} {k : Nat} (h : u.inputs = latsUsed k s.inputs) :
    (useLat u).inputs = latsUsed (k + 1) s.inputs := by
  simp [useLat, h, latsUsed, Nat.add_assoc]

theorem latency_latsUsed {s u : State} {k : Nat} (hcfg : u.cfg = s.cfg)
    (h : u.inputs = latsUsed k s.inputs) : latency u = nthLatency s k := by
  have hhead : (s.inputs.lats.drop k).headD (Config.freeLatency (s.inputs.fresh + k)) =
      s.inputs.lats.getD k (Config.freeLatency (s.inputs.fresh + k)) := by
    rw [List.headD_eq_head?_getD, List.head?_drop, List.getD_eq_getElem?_getD]
  simp only [latency, nthLatency, hcfg, h, latsUsed, drawn_eq_headD, hhead]

/-! ### The record of a slot -/

/-- What `Drive(d)` at `t` adds to the record of a slot (rule R118). -/
def Slot.drive (t : Nat) (d : Drive) (sl : Slot) : Slot :=
  match d, sl.tL, sl.tR with
  | .low, none, _ => { sl with tL := some t }
  | .low, some _, some _ => { sl with relow := true }
  | .rel, some _, none => { sl with tR := some t }
  | _, _, _ => sl

theorem driveAt_slot {s : State} (t : Nat) (d : Drive) (hl : s.cfg.level = .timed) :
    (driveAt t d s).slot = s.slot.drive t d := by
  cases d <;> cases hL : s.slot.tL <;> cases hR : s.slot.tR <;>
    simp [driveAt, noteDrive, Slot.drive, hl, hL, hR]

/-! ### Pulls -/

theorem pull_mapResponders (f : Responder → Responder) (b : Bus) :
    pull (b.mapResponders f) = pull b := rfl

theorem pull_terminal (s : State) : pull (terminal s).bus = pull s.bus := by
  rw [terminal_bus, pull_mapResponders]

/-- Intervals from `t` on pull nothing before `t`. -/
theorem pull_addPulls {b : Bus} {ps : List (Nat × Nat)} {t x : Nat} (hps : ∀ p ∈ ps, t ≤ p.1)
    (hx : x < t) : pull (b.addPulls ps) x = pull b x := by
  have hlate : ps.any (fun p => decide (p.1 ≤ x) && decide (x < p.2)) = false := by
    rw [List.any_eq_false]
    intro p hp
    have hp' := hps p hp
    simp only [Bool.and_eq_true, decide_eq_true_eq]
    omega
  simp [pull, Bus.addPulls, hlate]

theorem Responder.pullsOnLow_from (op : BitVec 2) (t : Nat) (r : Responder) :
    ∀ p ∈ r.pullsOnLow op t, t ≤ p.1 := by
  unfold Responder.pullsOnLow
  split <;> (try split) <;> simp

theorem Responder.pullsOnRelease_from (op : BitVec 2) (t : Nat) (r : Responder) :
    ∀ p ∈ r.pullsOnRelease op t, t ≤ p.1 := by
  unfold Responder.pullsOnRelease
  split <;> (try split) <;> simp

/-- What devices pull in answer to `Drive(d)` at `t` starts at `t` or later, so it changes nothing
before (rule R54). -/
theorem pull_driveAt (s : State) {t x : Nat} (d : Drive) (hx : x < t) :
    pull (driveAt t d s).bus x = pull s.bus x := by
  unfold driveAt noteDrive
  split
  · refine pull_addPulls (fun p hp => ?_) hx
    obtain ⟨r, -, hp⟩ := List.mem_flatMap.mp hp
    exact r.pullsOnLow_from _ t p hp
  · rfl
  · refine pull_addPulls (fun p hp => ?_) hx
    obtain ⟨r, -, hp⟩ := List.mem_flatMap.mp hp
    exact r.pullsOnRelease_from _ t p hp
  · rfl

/-! ### STEP in the middle of a sequence -/

/-- The key of the operation `op` with RESULT = `r` (rule R74). -/
def keyOfOp (op : BitVec 2) (r : Bool) : Key := op ++ BitVec.ofBool (op == opWrite && r)

theorem keyOfOp_reset (r : Bool) : keyOfOp opReset r = keyReset := by cases r <;> rfl
theorem keyOfOp_read (r : Bool) : keyOfOp opRead r = keyRead := by cases r <;> rfl
theorem keyOfOp_write (p : Bool) : keyOfOp opWrite p = if p then keyWrite1 else keyWrite0 := by
  cases p <;> rfl

@[simp] theorem keyOf_mkStep (b : Bool) (op : BitVec 2) (r : Bool) (n : BitVec 4) :
    keyOf (mkStep b op r n) = keyOfOp op r := by
  simp [keyOf, keyOfOp]

theorem advanceProg_mkStep {s : State} {b : Bool} {op : BitVec 2} {r : Bool} {k : Nat}
    (h : s.step = mkStep b op r (BitVec.ofNat 4 k)) :
    (advanceProg s).step = mkStep b op r (BitVec.ofNat 4 (k + 1)) := by
  simp [advanceProg, State.prog, h, withProg, BitVec.ofNat_add]

end Sys2Proof.Machine
end

section
/-! The default TIMER tables in Level B (rules R147 to R151): each tick's instant, the slot that an
observer has seen at READY, and RESULT. -/

namespace Sys2Proof.Machine

@[simp] theorem withResult_mkStep (b : Bool) (op : BitVec 2) (r r' : Bool) (n : BitVec 4) :
    withResult r' (mkStep b op r n) = mkStep b op r' n := by simp [withResult]

@[simp] theorem withReady_mkStep (b b' : Bool) (op : BitVec 2) (r : Bool) (n : BitVec 4) :
    withReady b' (mkStep b op r n) = mkStep b' op r n := by simp [withReady]

/-- The instruction at index `k` of a key's table. -/
def instrAt (cfg : Config) (key : Key) (k : Nat) (i : Instr) : Prop :=
  ∃ c, lookupDesc cfg key k = some c ∧ decode c = .ok i

/-- A tick runs the instruction at PROG of the table of its key (rules R106, R108). -/
theorem tickOnce_of_instrAt {u : State} {b : Bool} {op : BitVec 2} {r : Bool} {k : Nat} {i : Instr}
    (hstep : u.step = mkStep b op r (BitVec.ofNat 4 k)) (hk : k < 16)
    (hi : instrAt u.cfg (keyOfOp op r) k i) :
    tickOnce u = exec i (atHandler u) := by
  obtain ⟨c, hc, hd⟩ := hi
  refine tickOnce_of_fetchDesc (c := c) ?_ hd
  rw [fetchDesc_atHandler, State.key, State.prog, hstep, keyOf_mkStep, stepProg_mkStep,
    BitVec.toNat_ofNat, Nat.mod_eq_of_lt hk, hc]

/-! ### What an observer sees of a timer descriptor -/

/-- RESULT, DRIVE and the record of the slot. -/
structure Observed where
  result : Bool
  drive  : Drive
  slot   : Slot

/-- What a timer descriptor makes of them at the handler instant `h`, with the line at `level` (rules
R140 to R144). -/
def Observed.after (h : Nat) (level : Bool) : Instr → Observed → Observed
  | .tDriveLow _ _, o => { o with drive := .low, slot := o.slot.drive h .low }
  | .tRelease _ _, o => { o with drive := .rel, slot := o.slot.drive h .rel }
  | .tSampleSet _ _, o => { o with result := level, slot := o.slot.addSamples .read [h] }
  | .tSampleOr _ _, o =>
    { o with result := o.result || !level, slot := o.slot.addSamples .presence [h] }
  | _, o => o

/-- The descriptors that drive the line. -/
def drivesLine : Instr → Bool
  | .tDriveLow _ _ => true
  | .tRelease _ _ => true
  | _ => false

/-- The timer descriptors of a delay. -/
def timerDescs (d : BitVec 16) (t : Bool) : List Instr :=
  [.tHold d t, .tDriveLow d t, .tRelease d t, .tSampleSet d t, .tSampleOr d t]

/-- A timer descriptor's own effect in Level B. -/
theorem perform_timer_timed {v : State} {d : BitVec 16} {t : Bool} {i : Instr}
    (hi : i ∈ timerDescs d t) (hl : v.cfg.level = .timed) :
    let o := Observed.after v.now (line v) i ⟨v.result, v.drive, v.slot⟩
    (perform i v).step = withResult o.result v.step ∧ (perform i v).drive = o.drive ∧
      (perform i v).slot = o.slot ∧ (perform i v).inputs = v.inputs ∧
      (drivesLine i = false → (perform i v).bus = v.bus) := by
  have hself : v.step = withResult v.result v.step := (withResult_self v.step).symm
  simp only [timerDescs, List.mem_cons, List.not_mem_nil, or_false] at hi
  obtain rfl | rfl | rfl | rfl | rfl := hi
  · exact ⟨hself, rfl, rfl, rfl, fun _ => rfl⟩
  · exact ⟨(driveLine_step v .low).trans hself, driveLine_drive v .low, driveAt_slot v.now .low hl,
      driveLine_inputs v .low, nofun⟩
  · exact ⟨(driveLine_step v .rel).trans hself, driveLine_drive v .rel, driveAt_slot v.now .rel hl,
      driveLine_inputs v .rel, nofun⟩
  · simp [perform, performSampleSet, Observed.after, resultSampleSet, sample, tookSample, noteSamples,
      hl]
  · simp [perform, performSampleOr, Observed.after, resultSampleOr, sample, tookSample, noteSamples, hl]

/-- A timer descriptor that is not the last reloads the timer (rules R108, R145). -/
theorem tickOnce_of_timerDesc {u : State} {op : BitVec 2} {r : Bool} {k : Nat} {i : Instr}
    {d : BitVec 16} (he : u.cfg.engine = .timer) (hstep : u.step = mkStep false op r (BitVec.ofNat 4 k))
    (hi : instrAt u.cfg (keyOfOp op r) k i) (hform : k < 16 ∧ d ≠ 0#16 ∧ i ∈ timerDescs d false) :
    tickOnce u = .next (reloadTimer d.toNat (advanceProg (perform i (atHandler u)))) := by
  obtain ⟨hk, hd, hmem⟩ := hform
  rw [tickOnce_of_instrAt hstep hk hi, exec_timerDesc d false _ i hmem,
    runTimer_runs _ (by simpa using he) (delayMatchesT_iff.mpr (by simp [hd]))]
  rfl

/-- The last descriptor of a default table holds, and ends the sequence (rule R110). -/
theorem tickOnce_of_lastTimer {u : State} {op : BitVec 2} {r : Bool} {k : Nat}
    (he : u.cfg.engine = .timer) (hstep : u.step = mkStep false op r (BitVec.ofNat 4 k))
    (hi : instrAt u.cfg (keyOfOp op r) k (.tHold 0#16 true)) (hk : k < 16) :
    tickOnce u = .next (terminal (advanceProg (atHandler u))) := by
  rw [tickOnce_of_instrAt hstep hk hi]
  exact runTimer_runs (fun s => s) (by simpa using he) rfl

/-! ### Between two ticks -/

/-- `u` is between the ticks of a sequence from `s`, with `k` of them taken and the next armed for `t`;
`o` is what has been seen so far. -/
structure TimerAt (s : State) (op : BitVec 2) (k : Nat) (o : Observed) (t : Nat) (u : State) :
    Prop where
  cfg : u.cfg = s.cfg
  step : u.step = mkStep false op o.result (BitVec.ofNat 4 k)
  drive : u.drive = o.drive
  slot : u.slot = o.slot
  inputs : u.inputs = latsUsed k s.inputs
  now : u.now ≤ t
  nextT : u.nextT = t

section
variable {s : State} (hl : s.cfg.level = .timed) (he : s.cfg.engine = .timer)
  {op : BitVec 2} {k : Nat} {o : Observed} {t : Nat} {u : State}
include hl he

/-- The handler of the next tick finds the line and the record as they are, at NEXT_T and the tick's
latency (rule R107). -/
theorem TimerAt.atHandler (hu : TimerAt s op k o t u) :
    (atHandler u).now = t + nthLatency s k ∧ (atHandler u).drive = o.drive ∧
      (atHandler u).slot = o.slot ∧ (atHandler u).bus = u.bus ∧
      (atHandler u).inputs = latsUsed (k + 1) s.inputs := by
  obtain ⟨hcfg, -, hdrive, hslot, hinputs, hnow, hnextT⟩ := hu
  have hinstant : due u (u.nextT + latency u) = t + nthLatency s k := by
    rw [due_timed _ (by rwa [hcfg]), latency_latsUsed hcfg hinputs, hnextT]
    omega
  rw [Machine.atHandler, hinstant, enterTick_timed (by simpa [hcfg] using hl),
    advanceTo_timer (by rwa [hcfg]) (by rwa [hcfg])]
  exact ⟨by simp, by simpa using hdrive, by simpa using hslot, by simp,
    useLat_latsUsed (u := disarm ((runCounter _ u).setNow _)) (by simpa using hinputs)⟩

/-- A tick that is not the last performs its descriptor and arms the next. -/
theorem TimerAt.tick (hu : TimerAt s op k o t u) {i : Instr} {d : BitVec 16}
    (hi : instrAt s.cfg (keyOfOp op o.result) k i)
    (hform : k < 16 ∧ d ≠ 0#16 ∧ i ∈ timerDescs d false) :
    ∃ u', tickOnce u = .next u' ∧ TimerAt s op (k + 1)
        (Observed.after (t + nthLatency s k) (lineLevel o.drive u.bus (t + nthLatency s k)) i o)
        (t + nthLatency s k + d.toNat * 1000) u' ∧
      (drivesLine i = false → u'.bus = u.bus) := by
  obtain ⟨hnow, hdrive, hslot, hbus, hinputs⟩ := hu.atHandler hl he
  have hrun := tickOnce_of_timerDesc (by rwa [hu.cfg]) hu.step (by rwa [hu.cfg]) hform
  obtain ⟨-, -, hmem⟩ := hform
  obtain ⟨pstep, pdrive, pslot, pinputs, pbus⟩ :=
    perform_timer_timed (v := Machine.atHandler u) hmem (by simpa [hu.cfg] using hl)
  have hresult : (Machine.atHandler u).result = o.result := by
    simp [State.result, hu.step]
  have hline : line (Machine.atHandler u) = lineLevel o.drive u.bus (t + nthLatency s k) := by
    rw [line, hnow, hdrive, hbus]
  rw [hline, hresult, hnow, hdrive, hslot] at pstep pdrive pslot
  refine ⟨_, hrun, ⟨by simp [hu.cfg], ?_, by simpa using pdrive, by simpa using pslot, ?_, ?_, ?_⟩, ?_⟩
  · rw [reloadTimer_step]
    refine advanceProg_mkStep ?_
    rw [pstep, atHandler_step, hu.step, withResult_mkStep]
  · simpa [pinputs] using hinputs
  · simp [hnow]
  · simp [hnow, atLevel, hu.cfg, hl, nsPerCount]
  · intro hquiet
    simpa [hbus] using pbus hquiet

/-- The last tick changes nothing that an observer sees. -/
theorem TimerAt.last (hu : TimerAt s op k o t u) (hk : k < 16)
    (hi : instrAt s.cfg (keyOfOp op o.result) k (.tHold 0#16 true)) :
    ∃ u', tickOnce u = .next u' ∧ u'.step = mkStep true op o.result (BitVec.ofNat 4 (k + 1)) ∧
      u'.drive = o.drive ∧ u'.slot = { o.slot with tE := some t } ∧ pull u'.bus = pull u.bus := by
  obtain ⟨-, hdrive, hslot, hbus, -⟩ := hu.atHandler hl he
  refine ⟨_, tickOnce_of_lastTimer (by rwa [hu.cfg]) hu.step (by rwa [hu.cfg]) hk, ?_,
    by simpa using hdrive, ?_, ?_⟩
  · rw [terminal_step, advanceProg_mkStep (by rw [atHandler_step, hu.step]), withReady_mkStep]
  · simp [terminal, noteReady, hu.cfg, hl, hslot, hu.nextT]
  · rw [pull_terminal]
    exact congrArg pull hbus

end

/-! ### The four sequences -/

/-- A configuration with the default tables has their instructions. -/
theorem instrAt_default {cfg : Config} {e : Engine} (ht : cfg.tables = defaultTables e)
    {key key' : Key} {k : Nat} {i : Instr} (hkey : key' = key)
    (h : instrAt (defaultConfig e) key k i) : instrAt cfg key' k i := by
  obtain ⟨c, hc, hd⟩ := h
  refine ⟨c, ?_, hd⟩
  rw [← hc, hkey]
  simp only [lookupDesc, lookupTable, ht]
  rfl

section
variable {s : State} (hs : cleanEntry s) (hl : s.cfg.level = .timed) (he : s.cfg.engine = .timer)
  (ht : s.cfg.tables = defaultTables .timer)
include hs hl he

/-- A command arms its first tick T_PRIME on (rule R146). -/
theorem timerAt_issue {w : Byte} {op : BitVec 2} {p : Bool}
    (hw : issuedStep w = mkStep false op p 0#4) :
    TimerAt s op 0 ⟨p, .rel, Slot.empty⟩ (s.now + 2000) (issue w s) := by
  obtain ⟨hr, -, hd, -⟩ := hs
  rw [issue_ready w hr, accept_timer w he]
  exact ⟨by simp, by simpa using hw, by simpa using hd, by simp, by simp, by simp, by
    simp [atLevel, hl, primeCounts, nsPerCount]⟩

include ht

/-- The Reset-Pulse sequence (rule R148). -/
theorem timer_reset : ∃ u h0 h1 h2 h3, ticks 5 (issue 0x00#8 s) = .next u ∧
    h0 = s.now + 2000 + nthLatency s 0 ∧ h1 = h0 + 480000 + nthLatency s 1 ∧
    h2 = h1 + 70000 + nthLatency s 2 ∧ h3 = h2 + 60000 + nthLatency s 3 ∧
    u.step = mkStep true opReset (pull u.bus h2 || pull u.bus h3) 5#4 ∧ u.drive = .rel ∧
    u.slot = ⟨some h0, some h1, false, [h2, h3], [], some (h3 + 350000)⟩ := by
  have hinstr {r : Bool} {k : Nat} {i : Instr} :
      instrAt (defaultConfig .timer) keyReset k i → instrAt s.cfg (keyOfOp opReset r) k i :=
    instrAt_default ht (keyOfOp_reset r)
  have a0 := timerAt_issue hs hl he (w := 0x00#8) (op := opReset) (p := false) (by decide)
  obtain ⟨u1, t1, a1, -⟩ := a0.tick hl he (i := .tDriveLow 480#16 false) (d := 480#16)
    (hinstr ⟨_, rfl, rfl⟩) (by decide)
  obtain ⟨u2, t2, a2, -⟩ := a1.tick hl he (i := .tRelease 70#16 false) (d := 70#16)
    (hinstr ⟨_, rfl, rfl⟩) (by decide)
  obtain ⟨u3, t3, a3, hbus3⟩ := a2.tick hl he (i := .tSampleOr 60#16 false) (d := 60#16)
    (hinstr ⟨_, rfl, rfl⟩) (by decide)
  obtain ⟨u4, t4, a4, hbus4⟩ := a3.tick hl he (i := .tSampleOr 350#16 false) (d := 350#16)
    (hinstr ⟨_, rfl, rfl⟩) (by decide)
  obtain ⟨u, t5, hstep, hdrive, hslot, hpull⟩ := a4.last hl he (by decide) (hinstr ⟨_, rfl, rfl⟩)
  refine ⟨u, _, _, _, _, by simp only [ticks, t1, t2, t3, t4, t5], rfl, rfl, rfl, rfl, ?_, hdrive, hslot⟩
  rw [hstep, hpull, hbus4 rfl, hbus3 rfl]
  simp [Observed.after, lineLevel]

/-- The Read-Bit sequence (rule R149). -/
theorem timer_read : ∃ u h0 h1 h2, ticks 4 (issue 0x20#8 s) = .next u ∧
    h0 = s.now + 2000 + nthLatency s 0 ∧ h1 = h0 + 2000 + nthLatency s 1 ∧
    h2 = h1 + 10000 + nthLatency s 2 ∧
    u.step = mkStep true opRead (!pull u.bus h2) 4#4 ∧ u.drive = .rel ∧
    u.slot = ⟨some h0, some h1, false, [], [h2], some (h2 + 53000)⟩ := by
  have hinstr {r : Bool} {k : Nat} {i : Instr} :
      instrAt (defaultConfig .timer) keyRead k i → instrAt s.cfg (keyOfOp opRead r) k i :=
    instrAt_default ht (keyOfOp_read r)
  have a0 := timerAt_issue hs hl he (w := 0x20#8) (op := opRead) (p := false) (by decide)
  obtain ⟨u1, t1, a1, -⟩ := a0.tick hl he (i := .tDriveLow 2#16 false) (d := 2#16)
    (hinstr ⟨_, rfl, rfl⟩) (by decide)
  obtain ⟨u2, t2, a2, -⟩ := a1.tick hl he (i := .tRelease 10#16 false) (d := 10#16)
    (hinstr ⟨_, rfl, rfl⟩) (by decide)
  obtain ⟨u3, t3, a3, hbus3⟩ := a2.tick hl he (i := .tSampleSet 53#16 false) (d := 53#16)
    (hinstr ⟨_, rfl, rfl⟩) (by decide)
  obtain ⟨u, t4, hstep, hdrive, hslot, hpull⟩ := a3.last hl he (by decide) (hinstr ⟨_, rfl, rfl⟩)
  refine ⟨u, _, _, _, by simp only [ticks, t1, t2, t3, t4], rfl, rfl, rfl, ?_, hdrive, hslot⟩
  rw [hstep, hpull, hbus3 rfl]
  rfl

/-- The Write-Bit sequence of 0 (rule R150). -/
theorem timer_write0 : ∃ u h0 h1 h2, ticks 4 (issue 0x40#8 s) = .next u ∧
    h0 = s.now + 2000 + nthLatency s 0 ∧ h1 = h0 + 6000 + nthLatency s 1 ∧
    h2 = h1 + 54000 + nthLatency s 2 ∧
    u.step = mkStep true opWrite false 4#4 ∧ u.drive = .rel ∧
    u.slot = ⟨some h0, some h2, false, [], [], some (h2 + 5000)⟩ := by
  have hinstr {k : Nat} {i : Instr} :
      instrAt (defaultConfig .timer) keyWrite0 k i → instrAt s.cfg (keyOfOp opWrite false) k i :=
    instrAt_default ht (keyOfOp_write false)
  have a0 := timerAt_issue hs hl he (w := 0x40#8) (op := opWrite) (p := false) (by decide)
  obtain ⟨u1, t1, a1, -⟩ := a0.tick hl he (i := .tDriveLow 6#16 false) (d := 6#16)
    (hinstr ⟨_, rfl, rfl⟩) (by decide)
  obtain ⟨u2, t2, a2, -⟩ := a1.tick hl he (i := .tHold 54#16 false) (d := 54#16)
    (hinstr ⟨_, rfl, rfl⟩) (by decide)
  obtain ⟨u3, t3, a3, -⟩ := a2.tick hl he (i := .tRelease 5#16 false) (d := 5#16)
    (hinstr ⟨_, rfl, rfl⟩) (by decide)
  obtain ⟨u, t4, hstep, hdrive, hslot, -⟩ := a3.last hl he (by decide) (hinstr ⟨_, rfl, rfl⟩)
  exact ⟨u, _, _, _, by simp only [ticks, t1, t2, t3, t4], rfl, rfl, rfl, hstep, hdrive, hslot⟩

/-- The Write-Bit sequence of 1 (rule R151). -/
theorem timer_write1 : ∃ u h0 h1 h2, ticks 4 (issue 0x50#8 s) = .next u ∧
    h0 = s.now + 2000 + nthLatency s 0 ∧ h1 = h0 + 6000 + nthLatency s 1 ∧
    h2 = h1 + 54000 + nthLatency s 2 ∧
    u.step = mkStep true opWrite true 4#4 ∧ u.drive = .rel ∧
    u.slot = ⟨some h0, some h1, false, [], [], some (h2 + 5000)⟩ := by
  have hinstr {k : Nat} {i : Instr} :
      instrAt (defaultConfig .timer) keyWrite1 k i → instrAt s.cfg (keyOfOp opWrite true) k i :=
    instrAt_default ht (keyOfOp_write true)
  have a0 := timerAt_issue hs hl he (w := 0x50#8) (op := opWrite) (p := true) (by decide)
  obtain ⟨u1, t1, a1, -⟩ := a0.tick hl he (i := .tDriveLow 6#16 false) (d := 6#16)
    (hinstr ⟨_, rfl, rfl⟩) (by decide)
  obtain ⟨u2, t2, a2, -⟩ := a1.tick hl he (i := .tRelease 54#16 false) (d := 54#16)
    (hinstr ⟨_, rfl, rfl⟩) (by decide)
  obtain ⟨u3, t3, a3, -⟩ := a2.tick hl he (i := .tHold 5#16 false) (d := 5#16)
    (hinstr ⟨_, rfl, rfl⟩) (by decide)
  obtain ⟨u, t4, hstep, hdrive, hslot, -⟩ := a3.last hl he (by decide) (hinstr ⟨_, rfl, rfl⟩)
  exact ⟨u, _, _, _, by simp only [ticks, t1, t2, t3, t4], rfl, rfl, rfl, hstep, hdrive, hslot⟩

end

end Sys2Proof.Machine
end

section
/-! The default SHIFT_* tables in Level B (rules R170 to R174, R181 to R184): what a whole transfer leaves,
the slot that an observer has seen at READY, and RESULT. -/

namespace Sys2Proof.Machine

/-! ### One transfer -/

theorem getLsbD_setBit (v : Byte) {i : Nat} (b : Bool) (j : Nat) (hi : i < 8) :
    (setBit v i b).getLsbD j = if j = i then b else v.getLsbD j := by
  have hone : (1#8 <<< i).getLsbD j = decide (j = i) := by
    rw [← BitVec.twoPow_eq, BitVec.getLsbD_twoPow, decide_eq_true hi, Bool.true_and]
    simp [eq_comm]
  by_cases hj : j < 8
  · cases b <;> by_cases hji : j = i <;> simp [setBit, hone, hj, hji, hi, -BitVec.getLsbD_eq_getElem]
  · rw [BitVec.getLsbD_of_ge _ _ (by omega), BitVec.getLsbD_of_ge _ _ (by omega), if_neg (by omega)]

/-- The middle of a cell writes one bit of RXD, and nothing else (rule R174). -/
theorem applyCell_sample (t : Nat) {k : Nat} (hk : k < 8) (s : State) :
    (applyCell t (.sample k) s).cfg = s.cfg ∧ (applyCell t (.sample k) s).slot = s.slot ∧
    (applyCell t (.sample k) s).bus = s.bus ∧ (applyCell t (.sample k) s).txd = s.txd ∧
    ∀ j < 8, (applyCell t (.sample k) s).rxd.getLsbD (7 - j) =
      if j = k then lineLevel s.drive s.bus t else s.rxd.getLsbD (7 - j) := by
  refine ⟨rfl, rfl, rfl, rfl, fun j hj => ?_⟩
  rw [applyCell, State.setRxd_rxd, getLsbD_setBit _ _ _ (by omega)]
  exact if_congr (by omega) rfl rfl

theorem lineLevel_congr {b b' : Bus} {t : Nat} (d : Drive) (h : pull b t = pull b' t) :
    lineLevel d b t = lineLevel d b' t := by
  cases d with
  | low => rfl
  | rel => rw [lineLevel, lineLevel, h]

/-- The record of a slot after the drives of the cells `k` to `k + n - 1` of a transfer that started at
`st` (rule R173). -/
def cellsSlot (p : Byte) (st k n : Nat) (sl : Slot) : Slot :=
  (List.range' k n).foldl (fun sl j => sl.drive (cellStart st j) (cellDrive p j)) sl

/-- From the drive of cell `k` to the end of a transfer: each cell samples the line in its middle, when
the Bus has all the pulls of that time that it will ever have (rules R173, R174). -/
theorem applyCells_observed {lo hi st : Nat} {p : Byte} (hhi : st + tXfer ≤ hi) :
    ∀ (n k : Nat) (s u : State), k + 1 + n = 8 → lo ≤ cellStart st k → s.cfg.level = .timed →
    s.txd = p → s.drive = cellDrive p k →
    u = applyCells lo hi ((cellSample st k, .sample k) :: cellEvents st (k + 1) n) s →
    u.slot = cellsSlot p st (k + 1) n s.slot ∧
    (∀ x < cellStart st (k + 1), pull u.bus x = pull s.bus x) ∧
    (∀ j < k, u.rxd.getLsbD (7 - j) = s.rxd.getLsbD (7 - j)) ∧
    ∀ j < 8, k ≤ j →
      u.rxd.getLsbD (7 - j) = lineLevel (cellDrive p j) u.bus (cellSample st j) := by
  intro n
  induction n with
  | zero =>
    intro k s u hk hlo hl htxd hdrive hu
    obtain rfl : k = 7 := by omega
    have hat : cellStart st 7 = st + 63000 ∧ cellSample st 7 = st + 67500 ∧ tXfer = 72000 :=
      ⟨rfl, rfl, rfl⟩
    have hdone : lo < st + tXfer ∧ st + tXfer ≤ hi := by omega
    have hsampled : lo < cellSample st 7 ∧ cellSample st 7 ≤ hi := by omega
    simp only [cellEvents, applyCells, if_pos hsampled, if_pos hdone] at hu
    obtain ⟨-, -, -, -, hrxd⟩ := applyCell_sample (cellSample st 7) (k := 7) (by omega) s
    subst hu
    refine ⟨rfl, fun _ _ => rfl, fun j hj => ?_, fun j hj hj7 => ?_⟩
    · exact (hrxd j (by omega)).trans (if_neg (by omega))
    · obtain rfl : j = 7 := by omega
      exact (hrxd 7 (by omega)).trans ((if_pos rfl).trans (by rw [hdrive]; rfl))
  | succ n ih =>
    intro k s u hk hlo hl htxd hdrive hu
    have hat : cellStart st k = st + k * 9000 ∧ cellSample st k = st + k * 9000 + 4500 ∧
        cellStart st (k + 1) = st + (k + 1) * 9000 ∧
        cellStart st (k + 1 + 1) = st + (k + 1 + 1) * 9000 ∧ tXfer = 72000 :=
      ⟨rfl, rfl, rfl, rfl, rfl⟩
    have hdriven : lo < cellStart st (k + 1) ∧ cellStart st (k + 1) ≤ hi := by omega
    have hsampled : lo < cellSample st k ∧ cellSample st k ≤ hi := by omega
    rw [cellEvents, applyCells, applyCells, if_pos hsampled, if_pos hdriven] at hu
    obtain ⟨hcfg1, hslot1, hbus1, htxd1, hrxd1⟩ :=
      applyCell_sample (cellSample st k) (k := k) (by omega) s
    generalize applyCell (cellSample st k) (.sample k) s = s1 at hu hcfg1 hslot1 hbus1 htxd1 hrxd1
    rw [applyCell, htxd1, htxd] at hu
    obtain ⟨islot, ipull, ikept, irxd⟩ := ih (k + 1) _ u (by omega) (by omega)
      (by simpa [hcfg1] using hl) (by simp [htxd1, htxd]) (by simp) hu
    have hpull : ∀ x < cellStart st (k + 1), pull u.bus x = pull s.bus x := by
      intro x hx
      rw [ipull x (by omega), pull_driveAt s1 _ hx, hbus1]
    refine ⟨?_, hpull, fun j hj => ?_, fun j hj hkj => ?_⟩
    · rw [islot, driveAt_slot _ _ (by rwa [hcfg1]), hslot1]
      rfl
    · rw [ikept j (by omega), driveAt_rxd, hrxd1 j (by omega), if_neg (by omega)]
    · obtain rfl | hlt := Nat.eq_or_lt_of_le hkj
      · rw [ikept k (by omega), driveAt_rxd, hrxd1 k hj, if_pos rfl, hdrive]
        exact (lineLevel_congr _ (hpull _ (by omega))).symm
      · exact irxd j hj hlt

/-- At the handler of a transfer's completion: the record of its eight cells, RXD from the line in the
middle of each, and the pulls of the time before it as they were (rules R172 to R174). -/
theorem transfer_timed (p : Byte) {v w : State} (hl : v.cfg.level = .timed)
    (he : v.cfg.engine ≠ .timer) (hw : w = atHandler (startXfer p v.now v)) :
    w.now = v.now + 72000 + latency v ∧ w.inputs = (useLat v).inputs ∧
    w.slot = cellsSlot p v.now 0 8 v.slot ∧ (∀ x < v.now, pull w.bus x = pull v.bus x) ∧
    ∀ j < 8, w.rxd.getLsbD (7 - j) = lineLevel (cellDrive p j) w.bus (cellSample v.now j) := by
  set u := startXfer p v.now v with hu
  have hbusy : u.xferBusy = true ∧ u.now = v.now ∧ u.xferStart = v.now := by simp [hu, atLevel, hl]
  obtain ⟨hbusy, hnow, hstart⟩ := hbusy
  have hinstant : due u (u.nextT + latency u) = v.now + 72000 + latency v := by
    rw [due_timed _ (by simpa [hu] using hl)]
    simp [hu, atLevel, hl, tXfer, tBit, latency]
    omega
  have hfirst : ¬ (v.now < cellStart v.now 0 ∧ cellStart v.now 0 ≤ v.now + 72000 + latency v) := by
    simp [cellStart]
  have hrun : runXfer (v.now + 72000 + latency v) u = applyCells v.now (v.now + 72000 + latency v)
      ((cellSample v.now 0, .sample 0) :: cellEvents v.now 1 7) u := by
    rw [runXfer, if_pos hbusy, hnow, hstart, cellEvents, applyCells, if_neg hfirst]
  obtain ⟨islot, ipull, -, irxd⟩ := applyCells_observed (p := p) (by simp [tXfer, tBit]) 7 0 u _ rfl
    (by simp [cellStart]) (by simpa [hu] using hl) (by simp [hu]) (by simp [hu]) hrun
  have hslot : u.slot = v.slot.drive v.now (cellDrive p 0) := by
    simp only [hu, startXfer, armTick_slot]
    exact driveAt_slot _ _ hl
  rw [atHandler, hinstant, enterTick_timed (by simpa [hu] using hl),
    advanceTo_shift (by simpa [hu] using hl) (by simpa [hu] using he)] at hw
  subst hw
  refine ⟨by simp, ?_, ?_, fun x hx => ?_, by simpa using irxd⟩
  · have hinputs : u.inputs = v.inputs := by simp [hu]
    simp [useLat, hinputs]
  · simp only [useLat_slot, disarm_eq, State.setArmed_slot, State.setNow_slot, islot, hslot]
    rfl
  · simp only [useLat_bus, disarm_eq, State.setArmed_bus, State.setNow_bus]
    rw [ipull x (by simp only [cellStart, tBit]; omega)]
    simp only [hu, startXfer, armTick_bus]
    exact pull_driveAt _ _ hx

/-! ### One tick of a Reset-Pulse sequence -/

/-- The instruction at index `k` of a key's table, and the pattern of the one after it. -/
def shiftAt (cfg : Config) (key : Key) (k : Nat) (i : Instr) (p : Byte) : Prop :=
  instrAt cfg key k i ∧ ∃ w, lookupDesc cfg key (k + 1) = some (.sdesc w) ∧ w.extractLsb' 0 8 = p

/-- A capture that is not the last of a RESET's starts the next transfer at its handler (rules R108,
R178). -/
theorem tickOnce_of_shiftAt {u : State} {r : Bool} {k : Nat} {i : Instr} {pat p : Byte}
    (he : u.cfg.engine ≠ .timer) (hstep : u.step = mkStep false opReset r (BitVec.ofNat 4 k))
    (hk : k + 1 < 16) (hat : shiftAt u.cfg keyReset k i p)
    (hi : i = .sCapNone pat false ∨ i = .sCapOrLow pat false) :
    tickOnce u = .next (startXfer p (atHandler u).now (advanceProg (perform i (atHandler u)))) := by
  obtain ⟨hinstr, w, hw, hp⟩ := hat
  have hkey : (perform i (atHandler u)).key = keyReset := by
    obtain rfl | rfl := hi
    · simp [perform, State.key, hstep, keyOfOp_reset]
    · simp [key_perform_sCapOrLow, hstep, keyOfOp_reset]
  have hprog : ((atHandler u).prog + 1#4).toNat = k + 1 := by
    simp [State.prog, hstep, Nat.mod_eq_of_lt hk]
  rw [tickOnce_of_instrAt hstep (by omega) (by rwa [keyOfOp_reset]),
    exec_shiftDesc pat 0#3 false _ i (by obtain rfl | rfl := hi <;> simp)]
  refine runShift_continues i (by simpa using he) (c := .sdesc w) ?_ (congrArg some hp)
  rw [hkey, hprog, atHandler_cfg, hw]

/-- A transfer samples the line in the middle of its eight cells (rule R174). -/
theorem mem_sampleInstants {st x : Nat} :
    x ∈ sampleInstants st 0 8 ↔ ∃ j < 8, cellSample st j = x := by
  have hlist : sampleInstants st 0 8 = (List.range 8).map (cellSample st) := rfl
  simp only [hlist, List.mem_map, List.mem_range]

/-- The samples of a transfer lie within its run. -/
theorem sampleInstants_bounds {st x : Nat} (h : x ∈ sampleInstants st 0 8) :
    st + 4500 ≤ x ∧ x ≤ st + 67500 := by
  obtain ⟨j, hj, rfl⟩ := mem_sampleInstants.mp h
  have hcell : cellSample st j = st + j * 9000 + 4500 := rfl
  omega

theorem sampleInstants_any_congr {st : Nat} {f g : Nat → Bool} (h : ∀ x < st + 72000, f x = g x) :
    (sampleInstants st 0 8).any f = (sampleInstants st 0 8).any g := by
  rw [Bool.eq_iff_iff, List.any_eq_true, List.any_eq_true]
  refine exists_congr fun x => and_congr_right fun hx => ?_
  obtain ⟨-, hlt⟩ := sampleInstants_bounds hx
  rw [h x (by omega)]

/-- Eight ones release the line in every cell (rule R173). -/
theorem cellDrive_released : ∀ j < 8, cellDrive 0xFF#8 j = .rel := by decide

/-- A captured byte is not 0xFF exactly when the line was low in the middle of a cell (rules R174,
R176). -/
theorem captured_any_low {rxd : Byte} {st : Nat} {f : Nat → Bool}
    (h : ∀ j < 8, rxd.getLsbD (7 - j) = !f (cellSample st j)) :
    (rxd != 0xFF#8) = (sampleInstants st 0 8).any f := by
  have hones : ∀ i < 8, (0xFF#8).getLsbD i = true := by decide
  rw [Bool.eq_iff_iff, bne_iff_ne, List.any_eq_true]
  constructor
  · intro hne
    by_contra hall
    push Not at hall
    refine hne (BitVec.eq_of_getLsbD_eq fun i hi => ?_)
    have hbit := h (7 - i) (by omega)
    have hquiet := hall _ (mem_sampleInstants.mpr ⟨7 - i, by omega, rfl⟩)
    rw [hones i hi]
    simpa [show 7 - (7 - i) = i by omega, hquiet] using hbit
  · rintro ⟨x, hx, hf⟩ rfl
    obtain ⟨j, hj, rfl⟩ := mem_sampleInstants.mp hx
    have hbit := h j hj
    rw [hones _ (by omega), hf] at hbit
    exact absurd hbit (by decide)

/-- A descriptor with T ends the sequence (rule R110). -/
theorem tickOnce_of_lastShift {u : State} {op : BitVec 2} {r : Bool} {k : Nat} {i : Instr} {pat : Byte}
    {b : BitVec 3} (he : u.cfg.engine ≠ .timer) (hstep : u.step = mkStep false op r (BitVec.ofNat 4 k))
    (hk : k < 16) (hat : instrAt u.cfg (keyOfOp op r) k i)
    (hi : i ∈ [Instr.sCapNone pat true, .sCapOrLow pat true, .sCapBit pat b true]) :
    tickOnce u = .next (terminal (advanceProg (perform i (atHandler u)))) := by
  rw [tickOnce_of_instrAt hstep hk hat, exec_shiftDesc pat b true _ i hi,
    runShift_eq _ _ (by simpa using he), if_pos rfl]

/-- The transfer `k` of a sequence from `s` is about to start from `v`; `sl` is the record of the slot
so far. -/
structure BeforeXfer (s : State) (op : BitVec 2) (r : Bool) (k : Nat) (sl : Slot) (v : State) :
    Prop where
  cfg : v.cfg = s.cfg
  step : v.step = mkStep false op r (BitVec.ofNat 4 k)
  slot : v.slot = sl
  inputs : v.inputs = latsUsed k s.inputs

section
variable {s v : State} (hl : s.cfg.level = .timed) (he : s.cfg.engine ≠ .timer)
  {op : BitVec 2} {r : Bool} {k : Nat} {sl : Slot} {p : Byte}
include hl he

/-- A transfer whose byte is discarded adds its drives to the record (rule R177). -/
theorem BeforeXfer.tick_capNone (hv : BeforeXfer s opReset r k sl v) (hk : k + 1 < 16) {p' : Byte}
    (hat : shiftAt s.cfg keyReset k (.sCapNone p false) p') :
    ∃ v', tickOnce (startXfer p v.now v) = .next (startXfer p' v'.now v') ∧
      BeforeXfer s opReset r (k + 1) (cellsSlot p v.now 0 8 sl) v' ∧
      v'.now = v.now + 72000 + nthLatency s k ∧ ∀ x < v.now, pull v'.bus x = pull v.bus x := by
  obtain ⟨hcfg, hstep, hslot, hinputs⟩ := hv
  obtain ⟨hnow, hin, hsl, hpull, -⟩ := transfer_timed p (v := v) (by rwa [hcfg]) (by rwa [hcfg]) rfl
  refine ⟨advanceProg (atHandler (startXfer p v.now v)), ?_, ⟨by simp [hcfg], ?_, ?_, ?_⟩, ?_, ?_⟩
  · exact tickOnce_of_shiftAt (i := .sCapNone p false) (pat := p) (by simpa [hcfg] using he)
      (by simpa using hstep) hk (by simpa [hcfg] using hat) (.inl rfl)
  · exact advanceProg_mkStep (by simpa using hstep)
  · simpa [hslot] using hsl
  · simpa [hin] using useLat_latsUsed hinputs
  · simpa [latency_latsUsed hcfg hinputs] using hnow
  · simpa using hpull

/-- A transfer of 0xFF whose bits are ORed in adds its eight samples, and RESULT is then also set where
a device pulls at one of them (rules R119, R176). -/
theorem BeforeXfer.tick_capOrLow (hv : BeforeXfer s opReset r k sl v) (hk : k + 1 < 16) {p' : Byte}
    (hat : shiftAt s.cfg keyReset k (.sCapOrLow 0xFF#8 false) p') :
    ∃ v', tickOnce (startXfer 0xFF#8 v.now v) = .next (startXfer p' v'.now v') ∧
      BeforeXfer s opReset (r || (sampleInstants v.now 0 8).any (pull v'.bus)) (k + 1)
        ((cellsSlot 0xFF#8 v.now 0 8 sl).addSamples .presence (sampleInstants v.now 0 8)) v' ∧
      v'.now = v.now + 72000 + nthLatency s k ∧ ∀ x < v.now, pull v'.bus x = pull v.bus x := by
  obtain ⟨hcfg, hstep, hslot, hinputs⟩ := hv
  set w := atHandler (startXfer 0xFF#8 v.now v) with hw
  obtain ⟨hnow, hin, hsl, hpull, hrxd⟩ := transfer_timed 0xFF#8 (by rwa [hcfg]) (by rwa [hcfg]) hw
  have hcapture : (w.rxd != 0xFF#8) = (sampleInstants v.now 0 8).any (pull w.bus) :=
    captured_any_low fun j hj => by rw [hrxd j hj, cellDrive_released j hj]; rfl
  have hwstep : w.step = v.step := by simp [hw]
  have hstart : w.xferStart = v.now := by simp [hw, atLevel, hcfg, hl]
  have hwcfg : w.cfg = s.cfg := by simp [hw, hcfg]
  refine ⟨advanceProg (captureOrLow w), ?_, ⟨by simp [captureOrLow, hwcfg], ?_, ?_, ?_⟩, ?_, ?_⟩
  · rw [tickOnce_of_shiftAt (i := .sCapOrLow 0xFF#8 false) (pat := 0xFF#8) (p := p') (k := k) (r := r)
      (by simpa [hcfg] using he) (by simpa using hstep) hk (by simpa [hcfg] using hat) (.inr rfl), ← hw]
    simp [perform, captureOrLow]
  · refine advanceProg_mkStep ?_
    simp [captureOrLow, resultCapOrLow, State.result, hwstep, hstep, hcapture]
  · simp [captureOrLow, noteSamples, hwcfg, hl, hsl, hslot, hstart]
  · simpa [captureOrLow, hin] using useLat_latsUsed hinputs
  · simpa [captureOrLow, latency_latsUsed hcfg hinputs] using hnow
  · simpa [captureOrLow] using hpull

/-- A run of discarded transfers of one pattern that adds nothing to the record. -/
theorem BeforeXfer.ticks_capNone (hv : BeforeXfer s opReset r k sl v)
    (hsl : ∀ st, cellsSlot p st 0 8 sl = sl) :
    ∀ n, k + n < 16 → (∀ j < n, shiftAt s.cfg keyReset (k + j) (.sCapNone p false) p) →
      ∃ v', ticks n (startXfer p v.now v) = .next (startXfer p v'.now v') ∧
        BeforeXfer s opReset r (k + n) sl v' ∧ v.now + n * 72000 ≤ v'.now ∧
        ∀ x < v.now, pull v'.bus x = pull v.bus x := by
  intro n
  induction n with
  | zero => exact fun _ _ => ⟨v, rfl, hv, by omega, fun _ _ => rfl⟩
  | succ n ih =>
    intro hk hat
    obtain ⟨u, hticks, hu, hnow, hpull⟩ := ih (by omega) fun j hj => hat j (by omega)
    obtain ⟨v', htick, hv', hnow', hpull'⟩ := hu.tick_capNone hl he (by omega) (hat n (by omega))
    rw [hsl] at hv'
    have hlate : v.now + (n + 1) * 72000 ≤ v'.now := by
      rw [hnow', Nat.succ_mul, ← Nat.add_assoc]
      exact Nat.le_add_right_of_le (Nat.add_le_add_right hnow _)
    exact ⟨v', ticks_succ hticks htick, hv', hlate,
      fun x hx => (hpull' x (by omega)).trans (hpull x hx)⟩

/-- The end of a sequence whose last byte is discarded. -/
theorem BeforeXfer.last_capNone (hv : BeforeXfer s op r k sl v) (hk : k < 16) {pat : Byte}
    (hat : instrAt s.cfg (keyOfOp op r) k (.sCapNone pat true)) :
    ∃ u, tickOnce (startXfer p v.now v) = .next u ∧
      u.step = mkStep true op r (BitVec.ofNat 4 (k + 1)) ∧
      u.slot = { cellsSlot p v.now 0 8 sl with tE := some (v.now + 72000) } ∧
      ∀ x < v.now, pull u.bus x = pull v.bus x := by
  obtain ⟨-, -, hsl, hpull, -⟩ :=
    transfer_timed p (v := v) (by rwa [hv.cfg]) (by rwa [hv.cfg]) rfl
  refine ⟨_, tickOnce_of_lastShift (b := 0#3) (pat := pat) (by simpa [hv.cfg] using he)
    (by simpa using hv.step) hk (by simpa [hv.cfg] using hat) (by simp), ?_, ?_, fun x hx => ?_⟩
  · rw [terminal_step, advanceProg_mkStep (by simpa [perform] using hv.step), withReady_mkStep]
  · simp [terminal, noteReady, perform, hv.cfg, hl, hsl, hv.slot, atLevel, tXfer, tBit]
  · rw [pull_terminal]
    simpa [perform] using hpull x hx

/-- The end of a sequence whose RESULT is one bit of its last byte, captured in a cell that releases
the line (rules R120, R175). -/
theorem BeforeXfer.last_capBit (hv : BeforeXfer s op r k sl v) (hk : k < 16) {pat : Byte}
    {b : BitVec 3} (hat : instrAt s.cfg (keyOfOp op r) k (.sCapBit pat b true))
    (hcell : cellDrive p (7 - b.toNat) = .rel) :
    ∃ u, tickOnce (startXfer p v.now v) = .next u ∧
      u.step = mkStep true op (!pull u.bus (cellSample v.now (7 - b.toNat)))
        (BitVec.ofNat 4 (k + 1)) ∧
      u.slot = { (cellsSlot p v.now 0 8 sl).addSamples .read [cellSample v.now (7 - b.toNat)] with
        tE := some (v.now + 72000) } := by
  set w := atHandler (startXfer p v.now v) with hw
  obtain ⟨-, -, hsl, -, hrxd⟩ := transfer_timed p (by rwa [hv.cfg]) (by rwa [hv.cfg]) hw
  have hb : b.toNat < 8 := b.isLt
  have hbit : w.rxd.getLsbD b.toNat = !pull w.bus (cellSample v.now (7 - b.toNat)) := by
    have h := hrxd (7 - b.toNat) (by omega)
    rwa [show 7 - (7 - b.toNat) = b.toNat by omega, hcell] at h
  have hstart : w.xferStart = v.now := by simp [hw, atLevel, hv.cfg, hl]
  have hwcfg : w.cfg = s.cfg := by simp [hw, hv.cfg]
  have hnext : w.nextT = v.now + 72000 := by simp [hw, atLevel, hv.cfg, hl, tXfer, tBit]
  refine ⟨_, tickOnce_of_lastShift (b := b) (pat := pat) (by simpa [hv.cfg] using he)
    (by simpa using hv.step) hk (by simpa [hv.cfg] using hat) (by simp), ?_, ?_⟩
  · rw [pull_terminal, terminal_step, advanceProg_mkStep (s := perform _ w) (b := false) (op := op)
      (r := w.rxd.getLsbD b.toNat) (k := k) (by
        simp [perform, captureBit, resultCapBit, hw, hv.step]), withReady_mkStep, ← hw, hbit]
    simp [perform, captureBit]
  · simp [terminal, noteReady, perform, captureBit, noteSamples, ← hw, hwcfg, hl, hsl, hv.slot, hstart,
      hnext]

end

/-! ### The four sequences -/

/-- A configuration with the default tables has their descriptors. -/
theorem shiftAt_default {cfg : Config} {e : Engine} (ht : cfg.tables = defaultTables e) {k : Nat}
    {i : Instr} {p : Byte} (h : shiftAt (defaultConfig e) keyReset k i p) :
    shiftAt cfg keyReset k i p := by
  obtain ⟨hinstr, w, hw, hp⟩ := h
  refine ⟨instrAt_default ht rfl hinstr, w, ?_, hp⟩
  rw [← hw]
  simp only [lookupDesc, lookupTable, ht]
  rfl

section
variable {s : State} (hs : cleanEntry s) (hl : s.cfg.level = .timed) (he : s.cfg.engine ≠ .timer)
  (ht : s.cfg.tables = defaultTables .shiftIrq)
include hs he ht

/-- A command starts the transfer of the first pattern of its table at once (rules R101, R171). -/
theorem beforeXfer_issue {w : Byte} {op : BitVec 2} {r : Bool} {c : Code} {p : Byte}
    (hw : issuedStep w = mkStep false op r 0#4)
    (hc : lookupDesc (defaultConfig .shiftIrq) (keyOfOp op r) 0 = some c) (hp : patOf c = some p) :
    ∃ v, issue w s = startXfer p v.now v ∧ v.now = s.now ∧ BeforeXfer s op r 0 Slot.empty v := by
  have hpat : primePattern (s.setStep (issuedStep w)) = p := by
    refine primePattern_eq (c := c) ?_ hp
    rw [← hc]
    simp only [lookupDesc, lookupTable, State.setStep_cfg, ht, State.key, State.setStep_step, hw,
      keyOf_mkStep]
    rfl
  obtain ⟨hr, -⟩ := hs
  refine ⟨noteIssue (stepOp w) (s.setStep (issuedStep w)), ?_, rfl, ⟨rfl, hw, ?_, rfl⟩⟩
  · rw [issue_ready w hr, accept_shift w he, hpat]
    rfl
  · simp

include hl

/-- The Read-Bit sequence (rule R183). -/
theorem shift_read : ∃ u, ticks 1 (issue 0x20#8 s) = .next u ∧
    u.step = mkStep true opRead (!pull u.bus (s.now + 13500)) 1#4 ∧
    u.slot = ⟨some s.now, some (s.now + 9000), false, [], [s.now + 13500], some (s.now + 72000)⟩ := by
  obtain ⟨v, hv, hnow, hbefore⟩ := beforeXfer_issue hs he ht (w := 0x20#8) (op := opRead) (r := false)
    (by decide) rfl rfl
  obtain ⟨u, htick, hstep, hslot⟩ := hbefore.last_capBit hl he (p := 0x7F#8) (pat := 0x7F#8) (b := 6#3)
    (by decide) (instrAt_default ht (keyOfOp_read false) ⟨_, rfl, rfl⟩) (by decide)
  rw [hnow] at hstep hslot
  exact ⟨u, by rw [hv, ticks_one]; exact htick, hstep, hslot⟩

/-- The Write-Bit sequences (rule R184). -/
theorem shift_write (b : Bool) : ∃ u,
    ticks 1 (issue (if b then 0x50#8 else 0x40#8) s) = .next u ∧
    u.step = mkStep true opWrite b 1#4 ∧
    u.slot = ⟨some s.now, some (s.now + if b then 9000 else 63000), false, [], [],
      some (s.now + 72000)⟩ := by
  cases b with
  | false =>
    obtain ⟨v, hv, hnow, hbefore⟩ := beforeXfer_issue hs he ht (w := 0x40#8) (op := opWrite)
      (r := false) (by decide) rfl rfl
    obtain ⟨u, htick, hstep, hslot, -⟩ := hbefore.last_capNone hl he (p := 0x01#8) (pat := 0x01#8)
      (by decide) (instrAt_default ht (keyOfOp_write false) ⟨_, rfl, rfl⟩)
    rw [hnow] at hslot
    exact ⟨u, by rw [if_neg nofun, hv, ticks_one]; exact htick, hstep, hslot⟩
  | true =>
    obtain ⟨v, hv, hnow, hbefore⟩ := beforeXfer_issue hs he ht (w := 0x50#8) (op := opWrite)
      (r := true) (by decide) rfl rfl
    obtain ⟨u, htick, hstep, hslot, -⟩ := hbefore.last_capNone hl he (p := 0x7F#8) (pat := 0x7F#8)
      (by decide) (instrAt_default ht (keyOfOp_write true) ⟨_, rfl, rfl⟩)
    rw [hnow] at hslot
    exact ⟨u, by rw [if_pos rfl, hv, ticks_one]; exact htick, hstep, hslot⟩

/-- The seven transfers of a Reset-Pulse sequence that drive the line low (rule R182). -/
theorem shift_resetLow : ∃ v, ticks 7 (issue 0x00#8 s) = .next (startXfer 0xFF#8 v.now v) ∧
    s.now + 504000 ≤ v.now ∧
    BeforeXfer s opReset false 7 ⟨some s.now, none, false, [], [], none⟩ v := by
  have hlow (st a : Nat) : cellsSlot 0x00#8 st 0 8 ⟨some a, none, false, [], [], none⟩ =
      ⟨some a, none, false, [], [], none⟩ := rfl
  have hfirst : cellsSlot 0x00#8 s.now 0 8 Slot.empty = ⟨some s.now, none, false, [], [], none⟩ := rfl
  obtain ⟨v0, hv0, hnow0, b0⟩ := beforeXfer_issue hs he ht (w := 0x00#8) (op := opReset) (r := false)
    (p := 0x00#8) (by decide) rfl rfl
  obtain ⟨v1, t1, b1, hnow1, -⟩ := b0.tick_capNone hl he (p := 0x00#8) (p' := 0x00#8) (by decide)
    (shiftAt_default ht ⟨⟨_, rfl, rfl⟩, _, rfl, rfl⟩)
  rw [hnow0, hfirst] at b1
  obtain ⟨v6, t6, b6, hnow6, -⟩ := b1.ticks_capNone hl he (p := 0x00#8) (hlow · s.now) 5 (by decide)
    fun j hj => by interval_cases j <;> exact shiftAt_default ht ⟨⟨_, rfl, rfl⟩, _, rfl, rfl⟩
  obtain ⟨v7, t7, b7, hnow7, -⟩ := b6.tick_capNone hl he (p := 0x00#8) (p' := 0xFF#8) (by decide)
    (shiftAt_default ht ⟨⟨_, rfl, rfl⟩, _, rfl, rfl⟩)
  rw [hlow] at b7
  refine ⟨v7, ?_, by omega, b7⟩
  rw [hv0, ticks_add (m := 6) ((ticks_add ((ticks_one _).trans t1) 5).trans t6) 1, ticks_one, t7]

/-- The Reset-Pulse sequence (rule R182). -/
theorem shift_reset : ∃ u tR x y tE, ticks 14 (issue 0x00#8 s) = .next u ∧
    s.now + 504000 ≤ tR ∧ x = tR + 72000 + nthLatency s 7 ∧ y = x + 72000 + nthLatency s 8 ∧
    y + 360000 ≤ tE ∧
    u.step = mkStep true opReset ((sampleInstants x 0 8 ++ sampleInstants y 0 8).any (pull u.bus))
      14#4 ∧
    u.slot = ⟨some s.now, some tR, false, sampleInstants x 0 8 ++ sampleInstants y 0 8, [],
      some tE⟩ := by
  have hreleases (st a : Nat) : cellsSlot 0xFF#8 st 0 8 ⟨some a, none, false, [], [], none⟩ =
      ⟨some a, some st, false, [], [], none⟩ := rfl
  have hreleased (st a b : Nat) (l : List Nat) :
      cellsSlot 0xFF#8 st 0 8 ⟨some a, some b, false, l, [], none⟩ =
        ⟨some a, some b, false, l, [], none⟩ := rfl
  have hsamples (a b : Nat) (l l' : List Nat) :
      Slot.addSamples .presence l' ⟨some a, some b, false, l, [], none⟩ =
        ⟨some a, some b, false, l ++ l', [], none⟩ := rfl
  obtain ⟨v7, t7, hnow7, b7⟩ := shift_resetLow hs hl he ht
  obtain ⟨v8, t8, b8, hnow8, -⟩ := b7.tick_capNone hl he (p := 0xFF#8) (p' := 0xFF#8) (by decide)
    (shiftAt_default ht ⟨⟨_, rfl, rfl⟩, _, rfl, rfl⟩)
  rw [hreleases] at b8
  obtain ⟨v9, t9, b9, hnow9, -⟩ := b8.tick_capOrLow hl he (p' := 0xFF#8) (by decide)
    (shiftAt_default ht ⟨⟨_, rfl, rfl⟩, _, rfl, rfl⟩)
  rw [hreleased, hsamples, List.nil_append, Bool.false_or] at b9
  obtain ⟨v10, t10, b10, hnow10, hpull10⟩ := b9.tick_capOrLow hl he (p' := 0xFF#8) (by decide)
    (shiftAt_default ht ⟨⟨_, rfl, rfl⟩, _, rfl, rfl⟩)
  rw [hreleased, hsamples] at b10
  obtain ⟨v13, t13, b13, hnow13, hpull13⟩ := b10.ticks_capNone hl he (p := 0xFF#8)
    (hreleased · _ _ _) 3 (by decide)
    fun j hj => by interval_cases j <;> exact shiftAt_default ht ⟨⟨_, rfl, rfl⟩, _, rfl, rfl⟩
  obtain ⟨u, t14, hstep, hslot, hpull⟩ := b13.last_capNone hl he (p := 0xFF#8) (pat := 0xFF#8)
    (by decide) (instrAt_default ht (keyOfOp_reset _) ⟨_, rfl, rfl⟩)
  rw [hreleased] at hslot
  have hlate : ∀ x < v10.now, pull u.bus x = pull v10.bus x := fun x hx =>
    (hpull x (by omega)).trans (hpull13 x hx)
  have hfirst : (sampleInstants v8.now 0 8).any (pull v9.bus) =
      (sampleInstants v8.now 0 8).any (pull u.bus) :=
    sampleInstants_any_congr fun x hx => by rw [hlate x (by omega), hpull10 x (by omega)]
  have hsecond : (sampleInstants v9.now 0 8).any (pull v10.bus) =
      (sampleInstants v9.now 0 8).any (pull u.bus) :=
    sampleInstants_any_congr fun x hx => (hlate x (by omega)).symm
  refine ⟨u, v7.now, v8.now, v9.now, v13.now + 72000, ?_, hnow7, hnow8, hnow9, by omega, ?_, hslot⟩
  · rw [ticks_add (m := 13) ((ticks_add (ticks_succ (ticks_succ (ticks_succ t7 t8) t9) t10) 3).trans t13) 1,
      ticks_one, t14]
  · rw [hstep, hfirst, hsecond, List.any_append]

end

end Sys2Proof.Machine
end

section
/-! The default tables in Level A (rule R109): what each tick draws, and RESULT from the draws. -/

namespace Sys2Proof.Machine

/-! ### Draws of Level A -/

/-- The draws after `k` latencies, `m` samples and `b` bytes. -/
def drawsUsed (k m b : Nat) (i : Inputs) : Inputs :=
  { i with
    lats := i.lats.drop k
    samples := i.samples.drop m
    bytes := i.bytes.drop b
    fresh := i.fresh + k + m + b }

/-- The sample drawn after `m` others, at number `n` of all draws. -/
def nthSample (s : State) (m n : Nat) : Bool :=
  s.inputs.samples.getD m (Config.freeSample (s.inputs.fresh + n))

/-- The byte drawn at the tick after `k` others that have each taken a latency and a byte. -/
def nthByte (s : State) (k : Nat) : Byte :=
  s.inputs.bytes.getD k (Config.freeByte (s.inputs.fresh + 2 * k + 1))

theorem drawn_drop {α : Type} (given : List α) (free : Nat → α) (m n : Nat) :
    drawn (given.drop m) free n = given.getD m (free n) := by
  rw [drawn_eq_headD, List.headD_eq_head?_getD, List.head?_drop, List.getD_eq_getElem?_getD]

/-- `u` is between the ticks of a Level A sequence from `s`, with `k` of them, `m` samples and `b` bytes
taken. -/
structure UntimedAt (s : State) (op : BitVec 2) (r : Bool) (k m b : Nat) (u : State) : Prop where
  cfg : u.cfg = s.cfg
  step : u.step = mkStep false op r (BitVec.ofNat 4 k)
  inputs : u.inputs = drawsUsed k m b s.inputs

theorem untimedAt_issue {s : State} (hs : cleanEntry s) {w : Byte} {op : BitVec 2} {r : Bool}
    (hw : issuedStep w = mkStep false op r 0#4) : UntimedAt s op r 0 0 0 (issue w s) := by
  obtain ⟨hr, -⟩ := hs
  rw [issue_ready w hr]
  exact ⟨by simp, by simpa using hw, by simp [drawsUsed]⟩

/-! ### TIMER -/

/-- A timer descriptor without a sample takes no draw. -/
theorem perform_inputs_quiet {i : Instr} {d : BitVec 16} {t : Bool} (hi : i ∈ timerDescs d t)
    (hquiet : writesResult i = false) (v : State) : (perform i v).inputs = v.inputs := by
  simp only [timerDescs, List.mem_cons, List.not_mem_nil, or_false] at hi
  obtain rfl | rfl | rfl | rfl | rfl := hi
  · rfl
  · exact driveLine_inputs v .low
  · exact driveLine_inputs v .rel
  · cases hquiet
  · cases hquiet

section
variable {s u : State} (hl : s.cfg.level = .untimed) (he : s.cfg.engine = .timer)
  {op : BitVec 2} {r : Bool} {k m : Nat} {i : Instr} {d : BitVec 16}
include hl he

/-- A tick takes one latency before its descriptor. -/
theorem UntimedAt.atHandler_timer (hu : UntimedAt s op r k m 0 u) :
    (atHandler u).step = mkStep false op r (BitVec.ofNat 4 k) ∧
      (atHandler u).inputs = drawsUsed (k + 1) m 0 s.inputs := by
  obtain ⟨hcfg, hstep, hinputs⟩ := hu
  refine ⟨by simpa using hstep, ?_⟩
  rw [atHandler, advanceTo_untimed (by rwa [hcfg]), enterTick_timer (by rwa [hcfg])]
  simp [useLat, hinputs, drawsUsed]
  omega

/-- The sample of that descriptor. -/
theorem UntimedAt.sample_atHandler (hu : UntimedAt s op r k m 0 u) :
    sample (atHandler u) = nthSample s m (k + 1 + m) := by
  obtain ⟨-, hinputs⟩ := hu.atHandler_timer hl he
  rw [(tookSample_untimed .read (by simpa [hu.cfg] using hl)).1, ← drawn_eq_headD, hinputs, drawsUsed,
    drawn_drop, nthSample]
  simp only [Nat.add_assoc, Nat.add_zero]

/-- A tick whose descriptor takes no sample. -/
theorem UntimedAt.tick_timer (hu : UntimedAt s op r k m 0 u) (hquiet : writesResult i = false)
    (hi : instrAt s.cfg (keyOfOp op r) k i) (hform : k < 16 ∧ d ≠ 0#16 ∧ i ∈ timerDescs d false) :
    ∃ u', tickOnce u = .next u' ∧ UntimedAt s op r (k + 1) m 0 u' := by
  obtain ⟨hstep, hinputs⟩ := hu.atHandler_timer hl he
  refine ⟨_, tickOnce_of_timerDesc (by rwa [hu.cfg]) hu.step (by rwa [hu.cfg]) hform,
    by simp [hu.cfg], ?_, ?_⟩
  · rw [reloadTimer_step]
    exact advanceProg_mkStep ((perform_step _ hquiet).trans hstep)
  · obtain ⟨-, -, hmem⟩ := hform
    simpa [perform_inputs_quiet hmem hquiet] using hinputs

/-- A tick of T_SAMPLE_OR or T_SAMPLE_SET. -/
theorem UntimedAt.tick_sample (hu : UntimedAt s op r k m 0 u) (b : Bool) (hform : k < 16 ∧ d ≠ 0#16)
    (hi : instrAt s.cfg (keyOfOp op r) k (if b then .tSampleSet d false else .tSampleOr d false)) :
    ∃ u', tickOnce u = .next u' ∧
      UntimedAt s op (if b then nthSample s m (k + 1 + m) else r || !nthSample s m (k + 1 + m))
        (k + 1) (m + 1) 0 u' := by
  obtain ⟨hk, hd⟩ := hform
  obtain ⟨hstep, hinputs⟩ := hu.atHandler_timer hl he
  have hsample := hu.sample_atHandler hl he
  have hlevel : (atHandler u).cfg.level = .untimed := by simpa [hu.cfg] using hl
  refine ⟨_, tickOnce_of_timerDesc (by rwa [hu.cfg]) hu.step (by rwa [hu.cfg])
    ⟨hk, hd, by cases b <;> simp [timerDescs]⟩, by simp [hu.cfg], ?_, ?_⟩
  · rw [reloadTimer_step]
    refine advanceProg_mkStep ?_
    cases b <;> simp [perform, performSampleSet, performSampleOr, resultSampleSet, resultSampleOr,
      State.result, hu.step, hsample]
  · have htook (kind : SampleKind) (x : Bool) :
        (tookSample kind (setResult x (atHandler u))).inputs = drawsUsed (k + 1) (m + 1) 0 s.inputs := by
      rw [(tookSample_untimed kind (by simpa using hlevel)).2]
      simp [hinputs, drawsUsed]
      omega
    rw [reloadTimer_inputs, advanceProg_eq, State.setStep_inputs]
    cases b with
    | false => exact htook .presence _
    | true => exact htook .read _

/-- The last tick of a default table. -/
theorem UntimedAt.last_timer (hu : UntimedAt s op r k m 0 u) (hk : k < 16)
    (hi : instrAt s.cfg (keyOfOp op r) k (.tHold 0#16 true)) :
    ∃ u', tickOnce u = .next u' ∧ u'.step = mkStep true op r (BitVec.ofNat 4 (k + 1)) := by
  obtain ⟨hstep, -⟩ := hu.atHandler_timer hl he
  refine ⟨_, tickOnce_of_lastTimer (by rwa [hu.cfg]) hu.step (by rwa [hu.cfg]) hk, ?_⟩
  rw [terminal_step, advanceProg_mkStep hstep, withReady_mkStep]

end

/-! ### SHIFT_* -/

section
variable {s u : State} (hl : s.cfg.level = .untimed) (he : s.cfg.engine ≠ .timer)
  {op : BitVec 2} {r : Bool} {k : Nat} {p pat : Byte}
include hl he

/-- A tick takes one latency, and one byte, which is the transfer's, before its descriptor. -/
theorem UntimedAt.atHandler_shift (hu : UntimedAt s op r k 0 k u) :
    (atHandler u).step = mkStep false op r (BitVec.ofNat 4 k) ∧ (atHandler u).rxd = nthByte s k ∧
      (atHandler u).inputs = drawsUsed (k + 1) 0 (k + 1) s.inputs := by
  obtain ⟨hcfg, hstep, hinputs⟩ := hu
  have hat : atHandler u = completeUntimed (useLat (disarm u)) := by
    rw [atHandler, advanceTo_untimed (by rwa [hcfg]), enterTick_untimed_shift (by rwa [hcfg]) (by rwa [hcfg])]
  refine ⟨by simpa using hstep, ?_, ?_⟩
  · have hnumber : s.inputs.fresh + k + k + 1 = s.inputs.fresh + 2 * k + 1 := by omega
    simp [hat, completeUntimed, useLat, hinputs, drawsUsed, drawn_drop, nthByte, hnumber]
  · simp [hat, completeUntimed, useLat, useByte, hinputs, drawsUsed]
    omega

/-- A tick that is not the last of a RESET's. -/
theorem UntimedAt.tick_shift (hu : UntimedAt s opReset r k 0 k u) (b : Bool) (hk : k + 1 < 16)
    (hat : shiftAt s.cfg keyReset k (if b then .sCapOrLow pat false else .sCapNone pat false) p) :
    ∃ u', tickOnce u = .next u' ∧
      UntimedAt s opReset (r || b && nthByte s k != 0xFF#8) (k + 1) 0 (k + 1) u' := by
  obtain ⟨hstep, hrxd, hinputs⟩ := hu.atHandler_shift hl he
  refine ⟨_, tickOnce_of_shiftAt (by rwa [hu.cfg]) hu.step hk (by rwa [hu.cfg]) (pat := pat)
    (by cases b <;> simp), by simp [hu.cfg], ?_, ?_⟩
  · rw [startXfer_step]
    refine advanceProg_mkStep ?_
    cases b <;> simp [perform, captureOrLow, resultCapOrLow, State.result, hu.step, hrxd]
  · cases b <;> simp [perform, captureOrLow, hinputs]

/-- A run of discarded transfers. -/
theorem UntimedAt.ticks_capNone (hu : UntimedAt s opReset r k 0 k u) :
    ∀ n, k + n < 16 →
      (∀ j < n, ∃ pat p, shiftAt s.cfg keyReset (k + j) (.sCapNone pat false) p) →
      ∃ u', ticks n u = .next u' ∧ UntimedAt s opReset r (k + n) 0 (k + n) u' := by
  intro n
  induction n with
  | zero => exact fun _ _ => ⟨u, rfl, hu⟩
  | succ n ih =>
    intro hk hat
    obtain ⟨v, hticks, hv⟩ := ih (by omega) fun j hj => hat j (by omega)
    obtain ⟨pat, p, hp⟩ := hat n (by omega)
    obtain ⟨u', htick, hu'⟩ := hv.tick_shift hl he false (by omega) hp
    rw [Bool.false_and, Bool.or_false] at hu'
    exact ⟨u', ticks_succ hticks htick, hu'⟩

/-- The last tick of a table. -/
theorem UntimedAt.last_shift (hu : UntimedAt s op r k 0 k u) (c : Option (BitVec 3)) (hk : k < 16)
    (hi : instrAt s.cfg (keyOfOp op r) k (match c with
      | none => .sCapNone pat true
      | some b => .sCapBit pat b true)) :
    ∃ u', tickOnce u = .next u' ∧ u'.step =
      mkStep true op (match c with | none => r | some b => (nthByte s k).getLsbD b.toNat)
        (BitVec.ofNat 4 (k + 1)) := by
  obtain ⟨hstep, hrxd, -⟩ := hu.atHandler_shift hl he
  refine ⟨_, tickOnce_of_lastShift (by rwa [hu.cfg]) hu.step hk (by rwa [hu.cfg])
    (pat := pat) (b := c.getD 0#3) (by cases c <;> simp), ?_⟩
  rw [terminal_step, advanceProg_mkStep (k := k) (op := op) (b := false), withReady_mkStep]
  cases c <;> simp [perform, captureBit, resultCapBit, hu.step, hrxd]

end

/-! ### The sequences -/

section
variable {s : State} (hs : cleanEntry s) (hl : s.cfg.level = .untimed)
include hs hl

/-- The Reset-Pulse sequence of TIMER (rule R148). -/
theorem timer_reset_untimed (he : s.cfg.engine = .timer) (ht : s.cfg.tables = defaultTables .timer) :
    ∃ u, ticks 5 (issue 0x00#8 s) = .next u ∧
      u.step = mkStep true opReset (!nthSample s 0 3 || !nthSample s 1 5) 5#4 := by
  have hinstr {r : Bool} {k : Nat} {i : Instr} :
      instrAt (defaultConfig .timer) keyReset k i → instrAt s.cfg (keyOfOp opReset r) k i :=
    instrAt_default ht (keyOfOp_reset r)
  have a0 := untimedAt_issue hs (w := 0x00#8) (op := opReset) (r := false) (by decide)
  obtain ⟨u1, t1, a1⟩ := a0.tick_timer hl he (i := .tDriveLow 480#16 false) (d := 480#16) rfl
    (hinstr ⟨_, rfl, rfl⟩) (by decide)
  obtain ⟨u2, t2, a2⟩ := a1.tick_timer hl he (i := .tRelease 70#16 false) (d := 70#16) rfl
    (hinstr ⟨_, rfl, rfl⟩) (by decide)
  obtain ⟨u3, t3, a3⟩ := a2.tick_sample hl he (d := 60#16) false (by decide) (hinstr ⟨_, rfl, rfl⟩)
  obtain ⟨u4, t4, a4⟩ := a3.tick_sample hl he (d := 350#16) false (by decide) (hinstr ⟨_, rfl, rfl⟩)
  obtain ⟨u, t5, hstep⟩ := a4.last_timer hl he (by decide) (hinstr ⟨_, rfl, rfl⟩)
  exact ⟨u, by simp only [ticks, t1, t2, t3, t4, t5], hstep⟩

/-- The Read-Bit sequence of TIMER (rule R149). -/
theorem timer_read_untimed (he : s.cfg.engine = .timer) (ht : s.cfg.tables = defaultTables .timer) :
    ∃ u, ticks 4 (issue 0x20#8 s) = .next u ∧ u.step = mkStep true opRead (nthSample s 0 3) 4#4 := by
  have hinstr {r : Bool} {k : Nat} {i : Instr} :
      instrAt (defaultConfig .timer) keyRead k i → instrAt s.cfg (keyOfOp opRead r) k i :=
    instrAt_default ht (keyOfOp_read r)
  have a0 := untimedAt_issue hs (w := 0x20#8) (op := opRead) (r := false) (by decide)
  obtain ⟨u1, t1, a1⟩ := a0.tick_timer hl he (i := .tDriveLow 2#16 false) (d := 2#16) rfl
    (hinstr ⟨_, rfl, rfl⟩) (by decide)
  obtain ⟨u2, t2, a2⟩ := a1.tick_timer hl he (i := .tRelease 10#16 false) (d := 10#16) rfl
    (hinstr ⟨_, rfl, rfl⟩) (by decide)
  obtain ⟨u3, t3, a3⟩ := a2.tick_sample hl he (d := 53#16) true (by decide) (hinstr ⟨_, rfl, rfl⟩)
  obtain ⟨u, t4, hstep⟩ := a3.last_timer hl he (by decide) (hinstr ⟨_, rfl, rfl⟩)
  exact ⟨u, by simp only [ticks, t1, t2, t3, t4], hstep⟩

/-- The Reset-Pulse sequence of SHIFT_* (rule R182). -/
theorem shift_reset_untimed (he : s.cfg.engine ≠ .timer)
    (ht : s.cfg.tables = defaultTables .shiftIrq) :
    ∃ u, ticks 14 (issue 0x00#8 s) = .next u ∧
      u.step = mkStep true opReset (nthByte s 8 != 0xFF#8 || nthByte s 9 != 0xFF#8) 14#4 := by
  have a0 := untimedAt_issue hs (w := 0x00#8) (op := opReset) (r := false) (by decide)
  obtain ⟨u8, t8, a8⟩ := a0.ticks_capNone hl he 8 (by decide) fun j hj => by
    interval_cases j <;> exact ⟨_, _, shiftAt_default ht ⟨⟨_, rfl, rfl⟩, _, rfl, rfl⟩⟩
  obtain ⟨u9, t9, a9⟩ := a8.tick_shift hl he true (by decide)
    (shiftAt_default ht ⟨⟨_, rfl, rfl⟩, _, rfl, rfl⟩)
  obtain ⟨u10, t10, a10⟩ := a9.tick_shift hl he true (by decide)
    (shiftAt_default ht ⟨⟨_, rfl, rfl⟩, _, rfl, rfl⟩)
  obtain ⟨u13, t13, a13⟩ := a10.ticks_capNone hl he 3 (by decide) fun j hj => by
    interval_cases j <;> exact ⟨_, _, shiftAt_default ht ⟨⟨_, rfl, rfl⟩, _, rfl, rfl⟩⟩
  obtain ⟨u, t14, hstep⟩ := a13.last_shift hl he none (by decide)
    (instrAt_default ht (keyOfOp_reset _) ⟨_, rfl, rfl⟩)
  refine ⟨u, ?_, hstep⟩
  rw [ticks_add (m := 13) ((ticks_add (ticks_succ (ticks_succ t8 t9) t10) 3).trans t13) 1, ticks_one, t14]

/-- The Read-Bit sequence of SHIFT_* (rule R183). -/
theorem shift_read_untimed (he : s.cfg.engine ≠ .timer) (ht : s.cfg.tables = defaultTables .shiftIrq) :
    ∃ u, ticks 1 (issue 0x20#8 s) = .next u ∧
      u.step = mkStep true opRead ((nthByte s 0).getLsbD 6) 1#4 := by
  have a0 := untimedAt_issue hs (w := 0x20#8) (op := opRead) (r := false) (by decide)
  obtain ⟨u, t1, hstep⟩ := a0.last_shift hl he (some 6#3) (by decide)
    (instrAt_default ht (keyOfOp_read false) ⟨_, rfl, rfl⟩)
  exact ⟨u, (ticks_one _).trans t1, hstep⟩

end

end Sys2Proof.Machine
end

section
/-! The default tables at READY, at both levels (rules R109, R147 to R151, R181 to R184). -/

namespace Sys2Proof.Machine

/-! ### What every completed sequence has -/

/-- A key says its operation, and a Write-Bit's parameter (rule R74). -/
theorem keyOf_inj {v w : Byte} (h : keyOf v = keyOf w) :
    stepOp v = stepOp w ∧ (stepOp w = opWrite → stepResult v = stepResult w) := by
  have hfields : ∀ (op op' : BitVec 2) (r r' : Bool),
      op ++ BitVec.ofBool (op == opWrite && r) = op' ++ BitVec.ofBool (op' == opWrite && r') →
        op = op' ∧ (op' = opWrite → r = r') := by decide
  exact hfields _ _ _ _ h

section
variable {s u : State} {w : Byte} {n : Nat}

/-- The state after a sequence's ticks is the one at READY. -/
theorem sequenceAt_end (hs : cleanEntry s) (hn : stepCount s.cfg (keyOf (issuedStep w)) = some n)
    (h : ticks n (issue w s) = .next u) : SequenceAt s w n n u := by
  obtain ⟨v, hv, hend⟩ := ticks_sequenceAt hs hn n le_rfl
  obtain rfl : v = u := by simpa [hv] using h
  exact hend

/-- READY comes with the line released (rule R39). -/
theorem SequenceAt.drive_rel (hu : SequenceAt s w n n u) : u.drive = .rel := by
  obtain ⟨-, -, hdrive, -⟩ := (hu.inv hu.fault).1 (by simp [hu.ready])
  exact hdrive

theorem SequenceAt.op_eq {k : Nat} (hu : SequenceAt s w n k u) : u.op = stepOp w :=
  (keyOf_inj hu.key).1.trans (stepOp_issuedStep w)

/-- The RESULT of a Write-Bit sequence is the command's parameter (rule R74). -/
theorem SequenceAt.result_write {k : Nat} (hu : SequenceAt s w n k u) (hw : stepOp w = opWrite) :
    u.result = w.getLsbD 4 := by
  have hresult := (keyOf_inj hu.key).2 (by rwa [stepOp_issuedStep])
  simpa [State.result, hw] using hresult

end

/-- A Write-Bit sequence ends with its parameter, at both levels. -/
theorem write_end {s : State} (hs : cleanEntry s) {w : Byte} {n : Nat}
    (hn : stepCount s.cfg (keyOf (issuedStep w)) = some n) (hw : stepOp w = opWrite) :
    ∃ u, ticks n (issue w s) = .next u ∧
      u.step = mkStep true opWrite (w.getLsbD 4) (BitVec.ofNat 4 n) ∧ u.drive = .rel := by
  obtain ⟨u, hticks, hu⟩ := ticks_sequenceAt hs hn n le_rfl
  refine ⟨u, hticks, ?_, hu.drive_rel⟩
  have hprog : stepProg u.step = BitVec.ofNat 4 n := by
    rw [← hu.prog, BitVec.ofNat_toNat, BitVec.setWidth_eq]
    rfl
  have hready : stepReady u.step = true := by simpa [State.ready] using hu.ready
  rw [← mkStep_fields u.step, hready, hprog]
  exact congrArg₂ (mkStep true · · _) (hu.op_eq.trans hw) (hu.result_write hw)

/-- A configuration with the default tables has their step counts. -/
theorem stepCount_default {cfg : Config} {e : Engine} (ht : cfg.tables = defaultTables e) (key : Key) :
    stepCount cfg key = stepCount (defaultConfig e) key := by
  simp only [stepCount, lookupTable, ht]
  rfl

/-- A sequence of the default tables ends with the line released. -/
theorem drive_rel_default {s u : State} {w : Byte} {n : Nat} {e : Engine} (hs : cleanEntry s)
    (ht : s.cfg.tables = defaultTables e)
    (hn : stepCount (defaultConfig e) (keyOf (issuedStep w)) = some n)
    (h : ticks n (issue w s) = .next u) : u.drive = .rel :=
  (sequenceAt_end hs ((stepCount_default ht _).trans hn) h).drive_rel

/-- The two SHIFT_* engines have the same default tables (rule R181). -/
theorem shiftTables_default {cfg : Config} (ht : cfg.tables = defaultTables cfg.engine)
    (he : cfg.engine ≠ .timer) : cfg.tables = defaultTables .shiftIrq := by
  rw [ht]
  cases h : cfg.engine with
  | timer => exact absurd h he
  | shiftIrq => rfl
  | shiftPoll => rfl

/-! ### O57 -/

theorem mkStep_ite (op : BitVec 2) (b : Bool) (n : BitVec 4) :
    mkStep true op b n = if b then mkStep true op true n else mkStep true op false n := by
  cases b <;> rfl

theorem mkStep_not_ite (op : BitVec 2) (b : Bool) (n : BitVec 4) :
    mkStep true op (!b) n = if b then mkStep true op false n else mkStep true op true n := by
  cases b <;> rfl

section
variable {s : State} (hs : cleanEntry s) (ht : s.cfg.tables = defaultTables s.cfg.engine)
include hs ht

/-- The Write-Bit clause of O57 on TIMER. -/
theorem timer_write_end (he : s.cfg.engine = .timer) (p : Bool) :
    ∃ u, ticks 4 (issue (if p then 0x50#8 else 0x40#8) s) = .next u ∧
      u.step = (if p then 0xD4#8 else 0xC4#8) ∧ u.drive = .rel := by
  have hcount (key : Key) : stepCount s.cfg key = stepCount (defaultConfig .timer) key :=
    stepCount_default (by rw [ht, he]) key
  cases p with
  | false => exact write_end hs (w := 0x40#8) (n := 4) (hcount _) (by decide)
  | true => exact write_end hs (w := 0x50#8) (n := 4) (hcount _) (by decide)

/-- The Write-Bit clause of O57 on SHIFT_*. -/
theorem shift_write_end (he : s.cfg.engine ≠ .timer) (p : Bool) :
    ∃ u, ticks 1 (issue (if p then 0x50#8 else 0x40#8) s) = .next u ∧
      u.step = (if p then 0xD1#8 else 0xC1#8) ∧ u.drive = .rel := by
  have hcount (key : Key) : stepCount s.cfg key = stepCount (defaultConfig .shiftIrq) key :=
    stepCount_default (shiftTables_default ht he) key
  cases p with
  | false => exact write_end hs (w := 0x40#8) (n := 1) (hcount _) (by decide)
  | true => exact write_end hs (w := 0x50#8) (n := 1) (hcount _) (by decide)

end

/-- Settles O57: each sequence, tick by tick, in Level B and in Level A. -/
theorem defaultTablesResultAtReady : Obligations.DefaultTablesResultAtReady := by
  intro s hs ht
  refine ⟨fun he hl => ?_, fun he hl => ?_, fun he hl => ?_, fun he hl => ?_⟩
  · rw [he] at ht
    refine ⟨?_, ?_, fun p => ?_⟩
    · obtain ⟨u, _, _, h2, h3, hticks, -, -, -, -, hstep, hdrive, hslot⟩ := timer_reset hs hl he ht
      exact ⟨u, h2, h3, hticks, by rw [hslot], by rw [hslot], hstep.trans (mkStep_ite ..), hdrive⟩
    · obtain ⟨u, _, _, h2, hticks, -, -, -, hstep, hdrive, hslot⟩ := timer_read hs hl he ht
      exact ⟨u, h2, hticks, by rw [hslot], by rw [hslot], hstep.trans (mkStep_not_ite ..), hdrive⟩
    · cases p with
      | false =>
        obtain ⟨u, _, _, _, hticks, -, -, -, hstep, hdrive, hslot⟩ := timer_write0 hs hl he ht
        exact ⟨u, hticks, by rw [hslot], by rw [hslot], hstep, hdrive⟩
      | true =>
        obtain ⟨u, _, _, _, hticks, -, -, -, hstep, hdrive, hslot⟩ := timer_write1 hs hl he ht
        exact ⟨u, hticks, by rw [hslot], by rw [hslot], hstep, hdrive⟩
  · have ht' := shiftTables_default ht he
    refine ⟨?_, ?_, fun p => ?_⟩
    · obtain ⟨u, _, x, y, _, hticks, -, -, -, -, hstep, hslot⟩ := shift_reset hs hl he ht'
      exact ⟨u, x, y, hticks, by rw [hslot], by rw [hslot]; rfl,
        by rw [hslot]; exact hstep.trans (mkStep_ite ..), drive_rel_default hs ht' (by decide) hticks⟩
    · obtain ⟨u, hticks, hstep, hslot⟩ := shift_read hs hl he ht'
      exact ⟨u, hticks, by rw [hslot], by rw [hslot], hstep.trans (mkStep_not_ite ..),
        drive_rel_default hs ht' (by decide) hticks⟩
    · obtain ⟨u, hticks, hstep, hslot⟩ := shift_write hs hl he ht' p
      exact ⟨u, hticks, by rw [hslot], by rw [hslot], hstep.trans (mkStep_ite ..),
        drive_rel_default hs ht' (by cases p <;> decide) hticks⟩
  · have ht' : s.cfg.tables = defaultTables .timer := by rw [ht, he]
    refine ⟨?_, ?_, timer_write_end hs ht he⟩
    · obtain ⟨u, hticks, hstep⟩ := timer_reset_untimed hs hl he ht'
      exact ⟨u, hticks, hstep.trans (mkStep_ite ..), drive_rel_default hs ht' (by decide) hticks⟩
    · obtain ⟨u, hticks, hstep⟩ := timer_read_untimed hs hl he ht'
      exact ⟨u, hticks, hstep.trans (mkStep_ite ..), drive_rel_default hs ht' (by decide) hticks⟩
  · have ht' := shiftTables_default ht he
    refine ⟨?_, ?_, shift_write_end hs ht he⟩
    · obtain ⟨u, hticks, hstep⟩ := shift_reset_untimed hs hl he ht'
      refine ⟨u, hticks, hstep.trans ?_, drive_rel_default hs ht' (by decide) hticks⟩
      rw [mkStep_ite]
      exact if_congr (by rw [Bool.or_eq_true, bne_iff_ne, bne_iff_ne]; rfl) rfl rfl
    · obtain ⟨u, hticks, hstep⟩ := shift_read_untimed hs hl he ht'
      exact ⟨u, hticks, hstep.trans (mkStep_ite ..), drive_rel_default hs ht' (by decide) hticks⟩

end Sys2Proof.Machine
end

section
/-! The default tables against the slots of rules R118 to R121, and the engines' agreement over PROTO
(rules R123, R152, R185, R263). -/

namespace Sys2Proof.Machine

/-! ### Commands -/

/-- Commands that leave the same STEP are the same (rule R101). -/
theorem issue_of_issuedStep {v w : Byte} (h : issuedStep w = issuedStep v) (s : State) :
    issue w s = issue v s :=
  issue_congr (by rw [← stepOp_issuedStep w, h, stepOp_issuedStep]) h s

/-- A byte issues as the command of its operation does (rules R75, R101). -/
theorem issuedStep_cases (w : Byte) :
    (stepOp w = opReset ∧ issuedStep w = issuedStep 0x00#8) ∨
      (stepOp w = opRead ∧ issuedStep w = issuedStep 0x20#8) ∨
      (stepOp w = opWrite ∧ issuedStep w = issuedStep (if w.getLsbD 4 then 0x50#8 else 0x40#8)) ∨
      (stepOp w = opRsvd ∧ issuedStep w = issuedStep 0x60#8) := by
  revert w; decide

/-- A sequence of the default tables is a RESET, a READ or a WRITE, since RSVD's key has no table, and
its step count is its table's. -/
theorem default_sequence_cases {cfg : Config} {e : Engine} (ht : cfg.tables = defaultTables e) {w : Byte}
    {n : Nat} (hn : stepCount cfg (keyOf (issuedStep w)) = some n) :
    (stepOp w = opReset ∧ n = (if e = .timer then 5 else 14) ∧ ∀ s, issue w s = issue 0x00#8 s) ∨
      (stepOp w = opRead ∧ n = (if e = .timer then 4 else 1) ∧ ∀ s, issue w s = issue 0x20#8 s) ∨
      (stepOp w = opWrite ∧ n = (if e = .timer then 4 else 1) ∧
        ∀ s, issue w s = issue (if w.getLsbD 4 then 0x50#8 else 0x40#8) s) := by
  have hcount {v : Byte} {m : Nat} (h : issuedStep w = issuedStep v)
      (hm : stepCount (defaultConfig e) (keyOf (issuedStep v)) = some m) : n = m := by
    rw [stepCount_default ht, h, hm] at hn
    exact (Option.some.inj hn).symm
  obtain ⟨ho, h⟩ | ⟨ho, h⟩ | ⟨ho, h⟩ | ⟨ho, h⟩ := issuedStep_cases w
  · exact .inl ⟨ho, hcount h (by cases e <;> decide), issue_of_issuedStep h⟩
  · exact .inr (.inl ⟨ho, hcount h (by cases e <;> decide), issue_of_issuedStep h⟩)
  · refine .inr (.inr ⟨ho, hcount h ?_, issue_of_issuedStep h⟩)
    cases w.getLsbD 4 <;> cases e <;> decide
  · rw [stepCount_default ht, h] at hn
    cases e <;> exact absurd hn nofun

/-! ### A completed sequence, as an observer judges it -/

/-- The state at READY of the command `w`: its slot is within the limits, and RESULT is what the slot's
samples say (rules R119 to R122). The first presence sample is early enough for PROTO. -/
structure Answered (w : Byte) (u : State) : Prop where
  op : u.op = stepOp w
  not_rsvd : stepOp w ≠ opRsvd
  meets : slotMeets u.step u.slot
  reset : stepOp w = opReset → u.result = u.slot.presence.any (pull u.bus) ∧
    ∃ x ∈ u.slot.presence, ∀ tR, u.slot.tR = some tR → x < tR + 95000
  read : stepOp w = opRead → ∀ x, u.slot.reads = [x] → u.result = !pull u.bus x
  write : stepOp w = opWrite → u.result = w.getLsbD 4

section
variable {w : Byte} {u : State} {n : BitVec 4} {tL tR tE : Nat}

theorem answered_reset {x : Nat} {xs : List Nat} (hw : stepOp w = opReset)
    (hstep : u.step = mkStep true opReset ((x :: xs).any (pull u.bus)) n)
    (hslot : u.slot = ⟨some tL, some tR, false, x :: xs, [], some tE⟩)
    (hlow : tL + 480000 ≤ tR) (hxs : ∀ x' ∈ x :: xs, tR + 60000 ≤ x' ∧ x' ≤ tR + 240000)
    (hend : tR + 480000 ≤ tE) (hx : x < tR + 95000) : Answered w u := by
  refine ⟨by simp [State.op, hstep, hw], by rw [hw]; decide, ?_, fun _ => ?_, fun h => ?_, fun h => ?_⟩
  · rw [hstep, hslot]
    exact ⟨fun _ => ⟨tL, tR, tE, rfl, rfl, rfl, hlow, by simp, hxs, hend⟩, by simp [opReset, opRead],
      by simp [opReset, opWrite]⟩
  · rw [hslot]
    exact ⟨by simp [State.result, hstep], x, by simp, fun t ht => by
      obtain rfl : tR = t := Option.some.inj ht
      exact hx⟩
  · rw [hw] at h; exact absurd h (by decide)
  · rw [hw] at h; exact absurd h (by decide)

theorem answered_read {x : Nat} (hw : stepOp w = opRead)
    (hstep : u.step = mkStep true opRead (!pull u.bus x) n)
    (hslot : u.slot = ⟨some tL, some tR, false, [], [x], some tE⟩)
    (hlow : tL + 1000 ≤ tR) (hx : tR ≤ x ∧ x ≤ tL + 15000) (hend : tL + 60000 ≤ tE) :
    Answered w u := by
  refine ⟨by simp [State.op, hstep, hw], by rw [hw]; decide, ?_, fun h => ?_, fun _ x' hx' => ?_, fun h => ?_⟩
  · rw [hstep, hslot]
    exact ⟨by simp [opReset, opRead], fun _ => ⟨tL, tR, tE, x, rfl, rfl, rfl, rfl, hlow, hx.1, hx.2, rfl,
      hend⟩, by simp [opRead, opWrite]⟩
  · rw [hw] at h; exact absurd h (by decide)
  · rw [hslot] at hx'
    obtain rfl : x = x' := by simpa using hx'
    simp [State.result, hstep]
  · rw [hw] at h; exact absurd h (by decide)

theorem answered_write (hw : stepOp w = opWrite) (hstep : u.step = mkStep true opWrite (w.getLsbD 4) n)
    (hslot : u.slot = ⟨some tL, some tR, false, [], [], some tE⟩)
    (hend : tL + 60000 ≤ tE ∧ tR < tE) (hzero : w.getLsbD 4 = false → tL + 60000 ≤ tR)
    (hone : w.getLsbD 4 = true → tL + 1000 ≤ tR ∧ tR ≤ tL + 15000) : Answered w u := by
  refine ⟨by simp [State.op, hstep, hw], by rw [hw]; decide, ?_, fun h => ?_, fun h => ?_, fun _ => ?_⟩
  · rw [hstep, hslot]
    refine ⟨by simp [opReset, opWrite], by simp [opRead, opWrite], fun _ =>
      ⟨tL, tR, tE, rfl, rfl, rfl, hend.1, ?_⟩⟩
    rw [stepResult_mkStep]
    exact ⟨fun hp => ⟨hzero hp, hend.2⟩, fun hp => ⟨(hone hp).1, (hone hp).2, rfl⟩⟩
  · rw [hw] at h; exact absurd h (by decide)
  · rw [hw] at h; exact absurd h (by decide)
  · simp [State.result, hstep]

end

/-! ### The default tables within the latency bound -/

/-- The default tables' bound on L_MAX (rule R263). -/
def latencyBound : Engine → Nat
  | .timer => 1500
  | .shiftIrq => 14250
  | .shiftPoll => 14250

section
variable {s : State} (hs : cleanEntry s) (hl : s.cfg.level = .timed)
  (ht : s.cfg.tables = defaultTables s.cfg.engine) {w : Byte} {n : Nat}
  (hn : stepCount s.cfg (keyOf (issuedStep w)) = some n)
include hs hl ht hn

theorem answered_timer (he : s.cfg.engine = .timer) (hL : s.cfg.lMax ≤ 1500) :
    ∃ u, ticks n (issue w s) = .next u ∧ Answered w u := by
  rw [he] at ht
  have hlat (k : Nat) : nthLatency s k ≤ 1500 := (nthLatency_le s k).trans hL
  have lat0 := hlat 0
  have lat1 := hlat 1
  have lat2 := hlat 2
  have lat3 := hlat 3
  obtain ⟨ho, rfl, h⟩ | ⟨ho, rfl, h⟩ | ⟨ho, rfl, h⟩ := default_sequence_cases ht hn
  · obtain ⟨u, h0, h1, h2, h3, hticks, e0, e1, e2, e3, hstep, -, hslot⟩ := timer_reset hs hl he ht
    refine ⟨u, by rw [h]; exact hticks, answered_reset ho (x := h2) (xs := [h3]) (by simpa using hstep)
      hslot (by omega) ?_ (by omega) (by omega)⟩
    simp only [List.mem_cons, List.not_mem_nil, or_false, forall_eq_or_imp, forall_eq]
    omega
  · obtain ⟨u, h0, h1, h2, hticks, e0, e1, e2, hstep, -, hslot⟩ := timer_read hs hl he ht
    exact ⟨u, by rw [h]; exact hticks,
      answered_read ho hstep hslot (by omega) (by omega) (by omega)⟩
  · rw [h]
    cases hp : w.getLsbD 4 with
    | false =>
      obtain ⟨u, h0, h1, h2, hticks, e0, e1, e2, hstep, -, hslot⟩ := timer_write0 hs hl he ht
      exact ⟨u, hticks, answered_write ho (by rw [hp]; exact hstep) hslot (by omega) (fun _ => by omega)
        (fun h => absurd (hp.symm.trans h) nofun)⟩
    | true =>
      obtain ⟨u, h0, h1, h2, hticks, e0, e1, e2, hstep, -, hslot⟩ := timer_write1 hs hl he ht
      exact ⟨u, hticks, answered_write ho (by rw [hp]; exact hstep) hslot (by omega)
        (fun h => absurd (hp.symm.trans h) nofun) (fun _ => by omega)⟩

theorem answered_shift (he : s.cfg.engine ≠ .timer) (hL : s.cfg.lMax ≤ 14250) :
    ∃ u, ticks n (issue w s) = .next u ∧ Answered w u := by
  replace ht := shiftTables_default ht he
  have lat7 := (nthLatency_le s 7).trans hL
  have lat8 := (nthLatency_le s 8).trans hL
  obtain ⟨ho, rfl, h⟩ | ⟨ho, rfl, h⟩ | ⟨ho, rfl, h⟩ := default_sequence_cases ht hn
  · obtain ⟨u, tR, x, y, tE, hticks, hlow, hx, hy, hend, hstep, hslot⟩ := shift_reset hs hl he ht
    refine ⟨u, by rw [h]; exact hticks, answered_reset ho (x := cellSample x 0)
      (xs := sampleInstants x 1 7 ++ sampleInstants y 0 8) hstep hslot (by omega) ?_ (by omega) ?_⟩
    · intro x' hx'
      have hmem : x' ∈ sampleInstants x 0 8 ++ sampleInstants y 0 8 := hx'
      obtain hmem | hmem := List.mem_append.mp hmem <;>
        obtain ⟨hlo, hhi⟩ := sampleInstants_bounds hmem <;> omega
    · have hcell : cellSample x 0 = x + 4500 := rfl
      omega
  · obtain ⟨u, hticks, hstep, hslot⟩ := shift_read hs hl he ht
    exact ⟨u, by rw [h]; exact hticks,
      answered_read ho hstep hslot (by omega) (by omega) (by omega)⟩
  · obtain ⟨u, hticks, hstep, hslot⟩ := shift_write hs hl he ht (w.getLsbD 4)
    refine ⟨u, by rw [h]; exact hticks, answered_write ho hstep hslot ⟨by omega, ?_⟩ ?_ ?_⟩
    · split <;> omega
    · intro hp; rw [hp, if_neg nofun]; omega
    · intro hp; rw [hp, if_pos rfl]; omega

/-- Within the bound every sequence ends answered. -/
theorem answered_default (hL : s.cfg.lMax ≤ latencyBound s.cfg.engine) :
    ∃ u, ticks n (issue w s) = .next u ∧ Answered w u := by
  cases he : s.cfg.engine with
  | timer => exact answered_timer hs hl ht hn he (by simpa [he, latencyBound] using hL)
  | shiftIrq => exact answered_shift hs hl ht hn (by simp [he]) (by simpa [he, latencyBound] using hL)
  | shiftPoll => exact answered_shift hs hl ht hn (by simp [he]) (by simpa [he, latencyBound] using hL)

end

/-- Within the bound every state at READY is answered. -/
theorem sequenceEnds_answered {cfg : Config} (hl : cfg.level = .timed)
    (ht : cfg.tables = defaultTables cfg.engine) (hL : cfg.lMax ≤ latencyBound cfg.engine) {w : Byte}
    {u : State} (h : sequenceEnds cfg w u) : Answered w u := by
  obtain ⟨s, n, rfl, hs, hn, hticks⟩ := h
  obtain ⟨v, hv, hanswered⟩ := answered_default hs hl ht hn hL
  obtain rfl : v = u := by simpa [hv] using hticks
  exact hanswered

/-! ### O56 -/

/-- A default configuration of Level B. -/
def timedConfig (e : Engine) (lMax base : Nat) : Config :=
  { level := .timed, engine := e, tables := defaultTables e, lMax := lMax, base := base }

/-- That configuration at rest, with every latency of its first ticks at L_MAX. -/
def lateStart (e : Engine) (lMax base : Nat) : State :=
  (State.resetWith (timedConfig e lMax base)).setInputs
    { (State.resetWith (timedConfig e lMax base)).inputs with lats := List.replicate 15 lMax }

theorem cleanEntry_lateStart (e : Engine) (lMax base : Nat) : cleanEntry (lateStart e lMax base) := by
  have hready : stepReady stepReset = true := by decide
  refine ⟨hready, rfl, rfl, rfl, rfl, rfl, ?_⟩
  have hlegal : legalConfig (timedConfig e lMax base) = legalConfig (defaultConfig e) := rfl
  exact hlegal.trans (by cases e <;> decide)

theorem nthLatency_lateStart (e : Engine) (lMax base : Nat) {k : Nat} (hk : k < 15) :
    nthLatency (lateStart e lMax base) k = lMax := by
  have hdraw : (List.replicate 15 lMax).getD k
      (Config.freeLatency ((lateStart e lMax base).inputs.fresh + k)) = lMax := by
    rw [List.getD_eq_getElem?_getD, List.getElem?_replicate_of_lt hk]
    rfl
  have hlats : (lateStart e lMax base).inputs.lats = List.replicate 15 lMax := rfl
  have hcfg : (lateStart e lMax base).cfg.lMax = lMax := rfl
  rw [nthLatency, hlats, hdraw, hcfg, Nat.min_self]
  split
  · omega
  · rfl

/-- A TIMER READ whose ticks are all late samples too late beyond the bound (rule R152). -/
theorem lMax_le_of_timer_conforming {lMax base : Nat}
    (h : conforming (timedConfig .timer lMax base)) : lMax ≤ 1500 := by
  have hs := cleanEntry_lateStart .timer lMax base
  obtain ⟨u, h0, h1, h2, hticks, e0, e1, e2, hstep, -, hslot⟩ := timer_read hs rfl rfl rfl
  obtain ⟨-, hread, -⟩ := h 0x20#8 u ⟨_, 4, rfl, hs, rfl, hticks⟩
  obtain ⟨tL, tR, tE, x, htL, -, -, hx, -, -, hlate, -⟩ := hread (by rw [hstep, stepOp_mkStep])
  rw [hslot] at htL hx
  obtain rfl : h0 = tL := Option.some.inj htL
  obtain rfl : h2 = x := by simpa using hx
  have lat1 := nthLatency_lateStart .timer lMax base (k := 1) (by decide)
  have lat2 := nthLatency_lateStart .timer lMax base (k := 2) (by decide)
  omega

/-- A SHIFT_* RESET whose ticks are all late takes its last presence sample too late beyond the bound
(rule R185). -/
theorem lMax_le_of_shift_conforming {e : Engine} {lMax base : Nat} (he : e ≠ .timer)
    (h : conforming (timedConfig e lMax base)) : lMax ≤ 14250 := by
  have hs := cleanEntry_lateStart e lMax base
  have ht : (timedConfig e lMax base).tables = defaultTables .shiftIrq := shiftTables_default rfl he
  obtain ⟨u, tR, x, y, tE, hticks, -, hx, hy, -, hstep, hslot⟩ := shift_reset hs rfl he ht
  obtain ⟨hreset, -, -⟩ := h 0x00#8 u ⟨_, 14, rfl, hs, (stepCount_default ht _).trans rfl, hticks⟩
  obtain ⟨tL, tR', tE', -, htR, -, -, -, hpresence, -⟩ := hreset (by rw [hstep, stepOp_mkStep])
  rw [hslot] at htR hpresence
  obtain rfl : tR = tR' := Option.some.inj htR
  obtain ⟨-, hlate⟩ := hpresence (cellSample y 7)
    (List.mem_append_right _ (mem_sampleInstants.mpr ⟨7, by decide, rfl⟩))
  have lat7 := nthLatency_lateStart e lMax base (k := 7) (by decide)
  have lat8 := nthLatency_lateStart e lMax base (k := 8) (by decide)
  have hcell : cellSample y 7 = y + 67500 := rfl
  omega

theorem conforming_timedConfig_iff (e : Engine) (lMax base : Nat) :
    conforming (timedConfig e lMax base) ↔ lMax ≤ latencyBound e := by
  constructor
  · intro h
    cases e with
    | timer => exact lMax_le_of_timer_conforming h
    | shiftIrq => exact lMax_le_of_shift_conforming (by decide) h
    | shiftPoll => exact lMax_le_of_shift_conforming (by decide) h
  · exact fun hL w u h => (sequenceEnds_answered rfl rfl hL h).meets

/-- The bounds of rule R263, as the obligations list them. -/
theorem bound_eq_latencyBound {e : Engine} {bound : Nat}
    (h : (e, bound) ∈ [(Engine.timer, 1500), (.shiftIrq, 14250), (.shiftPoll, 14250)]) :
    bound = latencyBound e := by
  simp only [List.mem_cons, List.not_mem_nil, or_false, Prod.mk.injEq] at h
  obtain ⟨rfl, rfl⟩ | ⟨rfl, rfl⟩ | ⟨rfl, rfl⟩ := h <;> rfl

/-- Settles O56: within the bound every slot is in its limits, and a sequence whose ticks are all late
shows that the bound is the largest. -/
theorem defaultTablesConformingIffLatencyBounded :
    Obligations.DefaultTablesConformingIffLatencyBounded := by
  intro e bound hmem lMax base
  rw [bound_eq_latencyBound hmem]
  exact conforming_timedConfig_iff e lMax base

/-! ### O58 -/

/-- On the Pulls of PROTO, RESULT is what the device does (rules R122, R123). -/
theorem Answered.result_of_inProto {w : Byte} {u : State} (h : Answered w u) {pulls : Bool}
    (hproto : slotInProto u pulls) :
    u.result = if u.op = opReset then pulls else if u.op = opRead then !pulls else w.getLsbD 4 := by
  obtain ⟨hop, hrsvd, ⟨hreset, hread, -⟩, hpresence, hsample, hwrite⟩ := h
  obtain ⟨tL, tR, tE, htL, htR, htE, hprotoReset, hprotoRead⟩ := hproto
  have hu : stepOp u.step = u.op := rfl
  rw [hu] at hreset hread
  by_cases h0 : u.op = opReset
  · rw [if_pos h0]
    obtain ⟨_, tR', tE', -, htR', htE', -, -, hbounds, hend⟩ := hreset h0
    obtain rfl : tR = tR' := Option.some.inj (htR.symm.trans htR')
    obtain rfl : tE = tE' := Option.some.inj (htE.symm.trans htE')
    obtain ⟨hresult, x, hx, hearly⟩ := hpresence (hop ▸ h0)
    replace hprotoReset := hprotoReset h0
    rw [hresult]
    cases pulls with
    | false =>
      rw [List.any_eq_false]
      intro y hy
      obtain ⟨hlo, hhi⟩ := hbounds y hy
      simp [hprotoReset y (by omega) (by omega)]
    | true =>
      exact List.any_eq_true.mpr ⟨x, hx, hprotoReset x (hbounds x hx).1 (hearly tR htR)⟩
  rw [if_neg h0]
  by_cases h1 : u.op = opRead
  · rw [if_pos h1]
    obtain ⟨tL', tR', tE', x, htL', -, htE', hx, hlow, hafter, hlate, -, hend⟩ := hread h1
    obtain rfl : tL = tL' := Option.some.inj (htL.symm.trans htL')
    obtain rfl : tE = tE' := Option.some.inj (htE.symm.trans htE')
    rw [hsample (hop ▸ h1) x hx]
    replace hprotoRead := hprotoRead h1
    cases pulls with
    | false => rw [hprotoRead x (by omega) (by omega)]
    | true => rw [hprotoRead x (by omega) hlate]
  rw [if_neg h1]
  refine hwrite ?_
  have hops : ∀ op : BitVec 2, op ≠ opReset → op ≠ opRead → op ≠ opRsvd → op = opWrite := by decide
  exact hops _ (hop ▸ h0) (hop ▸ h1) hrsvd

/-- Settles O58: RESULT is the device's answer on every configuration, so any two of them agree. -/
theorem enginesAgreeOnProto : Obligations.EnginesAgreeOnProto := by
  refine ⟨fun s e bound hmem hs hl he ht hL w n hn => ?_, fun cfg1 cfg2 hl1 hl2 ht1 ht2 hc1 hc2 => ?_⟩
  · subst he
    rw [bound_eq_latencyBound hmem] at hL
    obtain ⟨u, hticks, hanswered⟩ := answered_default hs hl ht hn hL
    have hready : u.ready = true := by simp [(sequenceAt_end hs hn hticks).ready]
    exact ⟨u, hticks, hready, hanswered.op, fun pulls => hanswered.result_of_inProto⟩
  · have hbound {cfg : Config} (hl : cfg.level = .timed) (ht : cfg.tables = defaultTables cfg.engine)
        (hc : conforming cfg) : cfg.lMax ≤ latencyBound cfg.engine := by
      obtain ⟨level, e, tables, lMax, base⟩ := cfg
      obtain rfl : level = .timed := hl
      obtain rfl : tables = defaultTables e := ht
      exact (conforming_timedConfig_iff e lMax base).mp hc
    intro w pulls u1 u2 hu1 hu2 hp1 hp2
    have a1 := sequenceEnds_answered hl1 ht1 (hbound hl1 ht1 hc1) hu1
    have a2 := sequenceEnds_answered hl2 ht2 (hbound hl2 ht2 hc2) hu2
    rw [a1.result_of_inProto hp1, a2.result_of_inProto hp2, a1.op, a2.op]

end Sys2Proof.Machine
end

section
/-! One shift transfer from its start (rules R172 to R174): the drive waveform at every later time, and the
byte that RXD holds at its end. -/

namespace Sys2Proof.Machine

section
variable {s : State} (p : Byte) (hl : s.cfg.level = .timed)
include hl

theorem xferStart_startXfer : (startXfer p s.now s).xferStart = s.now := by simp [atLevel, hl]

/-- A transfer that starts at this instant drives its first cell (rules R172, R173). -/
theorem xferRuns_startXfer : xferRuns (startXfer p s.now s) := by
  simp [xferRuns, atLevel, hl, tXfer, tBit]

/-- The events of a transfer that starts at this instant: its first drive is the start's own, so what the
clock's advance runs begins with the sample of cell 0 (rules R172 to R174). -/
theorem runXfer_startXfer (t : Nat) :
    runXfer t (startXfer p s.now s) =
      applyCells s.now t ((cellSample s.now 0, .sample 0) :: cellEvents s.now 1 7)
        (startXfer p s.now s) := by
  have hfirst : ¬ (s.now < cellStart s.now 0 ∧ cellStart s.now 0 ≤ t) := by simp [cellStart]
  rw [runXfer, if_pos (startXfer_xferBusy s p s.now), startXfer_now, xferStart_startXfer p hl,
    cellEvents, applyCells, if_neg hfirst]

variable (he : s.cfg.engine ≠ .timer)
include he

/-- The cell in which a transfer stands at `t`, the last one from its end on, drives the line, and the
transfer is busy until its end (rules R172, R173). -/
theorem advanceTo_startXfer {t : Nat} (ht : s.now ≤ t) :
    (advanceTo t (startXfer p s.now s)).drive = cellDrive p (min 7 ((t - s.now) / 9000)) ∧
    (advanceTo t (startXfer p s.now s)).xferBusy = decide (t < s.now + 72000) := by
  obtain ⟨hbusy, hdrive⟩ := runXfer_spec (startXfer_xferBusy s p s.now) (xferRuns_startXfer p hl)
    (by simpa using ht)
  rw [xferStart_startXfer p hl] at hbusy hdrive
  rw [advanceTo_shift (by simpa using hl) (by simpa using he), State.setNow_drive,
    State.setNow_xferBusy]
  exact ⟨by rw [hdrive, startXfer_txd], hbusy⟩

/-- Once a transfer has ended, bit 7 - k of RXD is the line's level in the middle of cell k (rule R174). -/
theorem rxd_advanceTo_startXfer {t k : Nat} (ht : s.now + 72000 ≤ t) (hk : k < 8) :
    (advanceTo t (startXfer p s.now s)).rxd.getLsbD (7 - k) =
      lineLevel (cellDrive p k) (advanceTo t (startXfer p s.now s)).bus (cellSample s.now k) := by
  obtain ⟨-, -, -, hrxd⟩ := applyCells_observed (p := p) (lo := s.now) (hi := t) ht 7 0
    (startXfer p s.now s) _ rfl (by simp [cellStart]) (by simpa using hl) (by simp) (by simp)
    (runXfer_startXfer p hl t)
  rw [advanceTo_shift (by simpa using hl) (by simpa using he), State.setNow_rxd, State.setNow_bus]
  exact hrxd k hk (Nat.zero_le k)

end

/-- Settles O54: within cell k the time since the start, divided by 9 µs, is k, and from the end on it is
above 7. -/
theorem transferWaveform : Obligations.TransferWaveform := by
  intro s p t hl he ht
  obtain ⟨hdrive, hbusy⟩ := advanceTo_startXfer p hl he ht
  rw [hdrive, hbusy]
  refine ⟨fun k hk hlo hhi => ?_, fun hend => ?_⟩
  · have hcell : min 7 ((t - s.now) / 9000) = k := by omega
    exact ⟨by rw [hcell]; rfl, decide_eq_true (by omega)⟩
  · have hcell : min 7 ((t - s.now) / 9000) = 7 := by omega
    exact ⟨by rw [hcell]; rfl, decide_eq_false (by omega)⟩

/-- Settles O55: the sample of each cell at the transfer's end. -/
theorem transferCapture : Obligations.TransferCapture := fun _ p _ hl he hk =>
  rxd_advanceTo_startXfer p hl he le_rfl hk

end Sys2Proof.Machine
end

section
/-! The façade's discipline (rules R201 to R205, R260): a pending line issues only after a wait has seen
READY = 1. Each agent's step keeps this: a block reset and a tick leave the Host's lines and never clear
READY, and a Host step takes one line and leaves lines that begin with a wait where it has issued. -/

namespace Sys2Proof.Machine

/-! ### Paced lines -/

section
variable {op : HostOp} {s : State}

/-- A line that writes a command needs READY = 1, and leaves READY = 0 (rule R101). -/
theorem paced_cons_cmd {w : Byte} (h : lineKind op s = .code (.cmd w)) (r : Bool)
    (rest : List HostOp) : paced r (op :: rest) = (r && paced false rest) := by
  cases op with
  | write | writeBit => rfl
  | read => rw [lineKind] at h; split at h <;> cases h
  | _ => cases h

/-- A read and a line of the Host's own do not change READY (rules R82, R113). -/
theorem paced_cons_quiet (h : lineKind op s = .inHost ∨ ∃ rd, lineKind op s = .code (.stat rd))
    (r : Bool) (rest : List HostOp) : paced r (op :: rest) = paced r rest := by
  cases op with
  | write => obtain h | ⟨_, h⟩ := h <;> rw [lineKind] at h <;> split at h <;> cases h
  | writeBit | pseudo => obtain h | ⟨_, h⟩ := h <;> cases h
  | _ => rfl

end

/-- A façade operation needs READY = 1 (rules R202 to R204). -/
theorem paced_cons_pseudo {p : Pseudo} (hp : p ≠ .wait) (reg : Reg) (r : Bool)
    (rest : List HostOp) : paced r (.pseudo p reg :: rest) = (r && paced true rest) := by
  cases p with
  | wait => exact absurd rfl hp
  | reset | wrbyte | rdbyte => rfl

/-- Lines that are paced from some READY are paced from READY = 1. -/
theorem paced_true {r : Bool} {ls : List HostOp} (h : paced r ls = true) : paced true ls = true := by
  cases r with
  | true => exact h
  | false =>
    induction ls with
    | nil => rfl
    | cons op rest ih =>
      cases op with
      | pseudo p reg =>
        by_cases hp : p = .wait
        · subst hp; exact h
        · rw [paced_cons_pseudo hp] at h; cases h
      | write | writeBit => cases h
      | _ => exact ih h

/-- The lines that `ow.wrbyte` leaves are paced: each bit's issue is followed by a wait (rule R203). -/
theorem paced_wrbyteLines (rs : Reg) (i n : Nat) (rest : List HostOp) :
    paced true (wrbyteLines rs i n ++ rest) = paced true rest := by
  induction n generalizing i with
  | zero => rfl
  | succ n ih => exact ih (i + 1)

/-- The lines that `ow.rdbyte` leaves are paced: each bit's issue is followed by a wait (rule R204). -/
theorem paced_rdbyteLines (base : Nat) (rd : Reg) (i n : Nat) (rest : List HostOp) :
    paced true (rdbyteLines base rd i n ++ rest) = paced true rest := by
  induction n generalizing i with
  | zero => rfl
  | succ n ih => exact ih (i + 1)

/-- A line of a façade program is paced by itself (rule R205). -/
theorem paced_facadeLine {op : HostOp} (h : isFacadeLine op = true) : paced true [op] = true := by
  cases op with
  | write | writeBit => cases h
  | pseudo p reg => cases p <;> rfl
  | _ => rfl

/-! ### What each operation leaves of a façade state -/

section
variable {s u : State}

/-- A façade state stays one where the Host is as before and READY is not cleared. -/
theorem facadeHost_of_host (hs : facadeHost s) (hf : u.fault = .none) (hh : u.host = s.host)
    (hr : s.ready = true → u.ready = true) : facadeHost u := by
  obtain ⟨-, hpaced, hprog⟩ := hs
  rw [facadeHost, hh]
  refine ⟨hf, ?_, hprog⟩
  cases hready : s.ready with
  | false => rw [hready] at hpaced; cases hu : u.ready <;> simp [paced_true hpaced, hpaced]
  | true => rw [hr hready]; rwa [hready] at hpaced

/-- The line that the Host takes is paced with those it leaves: it is the first pending one, or a line of
the program, and then no pending line has been left and READY = 1 has been seen. -/
theorem paced_nextLine (hs : facadeHost s) {op : HostOp} (hn : nextLine s = some op) :
    paced s.ready (op :: s.host.micro.tail) = true := by
  obtain ⟨-, hpaced, hprog⟩ := hs
  unfold nextLine at hn
  split at hn
  · rename_i hmicro
    cases hn
    rwa [hmicro] at hpaced ⊢
  · rename_i hmicro
    rw [hmicro] at hpaced ⊢
    rw [show s.ready = true from hpaced]
    exact paced_facadeLine (List.all_eq_true.mp hprog op (List.mem_of_getElem? hn))

/-- A Host step takes the first pending line, or one of the program where none is pending. -/
theorem enterHost_lines (s : State) : (enterHost s).host.micro = s.host.micro.tail ∧
    (enterHost s).host.prog = s.host.prog := by
  obtain ⟨-, hprog, hcons, hnil⟩ := passLine_place (useGap s)
  refine ⟨?_, hprog⟩
  cases hm : s.host.micro with
  | nil => exact (hnil hm).1
  | cons op rest => exact (hcons op rest hm).1

/-- The Host's own lines do not touch its pending lines or its program (rule R82). -/
theorem hostLocal_lines (op : HostOp) (s : State) : (hostLocal op s).host.micro = s.host.micro ∧
    (hostLocal op s).host.prog = s.host.prog := by
  cases op with
  | bnz | bz => rw [hostLocal]; split <;> exact ⟨rfl, rfl⟩
  | _ => exact ⟨rfl, rfl⟩

/-- An accepted command leaves a façade state where the lines after it are paced from READY = 0. -/
theorem facadeHost_issue (w : Byte) (hf : s.fault = .none) (hr : s.ready = true)
    (hpaced : paced false s.host.micro = true) (hprog : s.host.prog.all isFacadeLine = true) :
    facadeHost (issue w s) := by
  rw [issue_ready w hr]
  exact ⟨by simpa using hf, by simpa [State.ready] using hpaced, by rwa [accept_host]⟩

/-- A wait leaves a façade state where the lines after it are paced from READY = 1: it ends with
READY = 1, or is itself the next line again (rule R114). -/
theorem facadeHost_owWait {rd : Reg} (hf : s.fault = .none)
    (hpaced : paced true s.host.micro = true) (hprog : s.host.prog.all isFacadeLine = true)
    (h : exec (.owWait rd) s = .next u) : facadeHost u := by
  cases hr : s.ready with
  | true =>
    rw [exec_owWait_ready rd hr] at h
    cases h
    exact ⟨hf, (congrArg (paced · s.host.micro) hr).trans hpaced, hprog⟩
  | false =>
    rw [exec_owWait_busy rd hr] at h
    cases h
    exact ⟨hf, (congrArg (paced · (.pseudo .wait rd :: s.host.micro)) hr).trans hpaced, hprog⟩

/-- A façade operation that starts with READY = 1 leaves a façade state: the lines it leaves begin with
a wait (rules R202 to R204). -/
theorem facadeHost_pseudo {p : Pseudo} {reg : Reg} (hf : s.fault = .none)
    (hpaced : paced s.ready (.pseudo p reg :: s.host.micro) = true)
    (hprog : s.host.prog.all isFacadeLine = true)
    (h : exec (decodePseudo p reg) s = .next u) : facadeHost u := by
  by_cases hp : p = .wait
  · subst hp
    exact facadeHost_owWait hf hpaced hprog h
  · rw [paced_cons_pseudo hp, Bool.and_eq_true] at hpaced
    obtain ⟨hr, hpaced⟩ := hpaced
    cases p with
    | wait => exact absurd rfl hp
    | reset => cases h; exact facadeHost_issue _ hf hr hpaced hprog
    | wrbyte =>
      cases h
      exact facadeHost_issue _ hf hr ((paced_wrbyteLines reg 1 7 _).trans hpaced) hprog
    | rdbyte =>
      cases h
      exact facadeHost_issue _ hf hr ((paced_rdbyteLines s.cfg.base reg 1 7 _).trans hpaced) hprog

/-! ### The three steps -/

/-- A Host step keeps a façade state. -/
theorem facadeHost_hostStep {op : HostOp} (hs : facadeHost s) (hn : nextLine s = some op)
    (h : hostStep op s = .next u) : facadeHost u := by
  have hpaced := paced_nextLine hs hn
  obtain ⟨hf, -, hprog⟩ := hs
  obtain ⟨hmicro, hprog'⟩ := enterHost_lines s
  rw [← hprog'] at hprog
  rw [← hmicro] at hpaced
  replace hf : (enterHost s).fault = .none := by simpa using hf
  have hready : s.ready = (enterHost s).ready := by simp [State.ready]
  rw [hready] at hpaced
  obtain ⟨hk, rfl⟩ | ⟨c, i, hk, hd, hx⟩ := hostStep_next h
  · rw [paced_cons_quiet (.inl hk)] at hpaced
    obtain ⟨hmicro, hprog'⟩ := hostLocal_lines op (enterHost s)
    exact ⟨by simpa using hf, by simpa [State.ready, hmicro] using hpaced, hprog' ▸ hprog⟩
  · obtain ⟨-, w, rfl⟩ | ⟨-, rd, rfl⟩ | ⟨p, reg, rfl, rfl⟩ := lineKind_code hk
    · cases hd
      rw [exec_decodeCmd] at hx
      cases hx
      rw [paced_cons_cmd hk, Bool.and_eq_true] at hpaced
      exact facadeHost_issue w hf hpaced.1 hpaced.2 hprog
    · cases hd
      cases hx
      rw [paced_cons_quiet (.inr ⟨rd, hk⟩)] at hpaced
      exact ⟨hf, hpaced, hprog⟩
    · cases hd
      exact facadeHost_pseudo hf hpaced hprog hx

/-- A tick keeps a façade state: it leaves the Host and never clears READY (rules R25, R112). -/
theorem facadeHost_tickStep (hs : facadeHost s) (hl : legalConfig s.cfg = true)
    (h : tickStep s = .next u) : facadeHost u := by
  obtain ⟨hf, -⟩ := id hs
  obtain ⟨-, rfl⟩ | ⟨c, i, table, is, -, hfetched, htick⟩ := tickStep_cases hl h
  · exact facadeHost_of_host hs (by simpa using hf) (by simp) (by simp [State.ready])
  · obtain ⟨-, -, -, hfault, hready⟩ := hfetched.ticked htick
    refine facadeHost_of_host hs (by simpa [hfault] using hf) ?_ fun hr => ?_
    · simp [descriptorTicked_host htick]
    · rw [hready]
      simpa [State.ready] using .inr hr

/-- A block reset keeps a façade state: it leaves the Host and sets READY (rules R38, R251). -/
theorem facadeHost_resetStep (hs : facadeHost s) (t : Nat) : facadeHost (resetStep t s) := by
  obtain ⟨hf, -⟩ := id hs
  rw [resetStep, if_pos hf]
  exact facadeHost_of_host hs (by simp) (by simp) fun _ => by
    simp [State.ready, stepReady_stepReset]

end

/-- Settles O51: with no line pending READY = 1 is all that is asked, and a block reset, a tick and a Host
step each keep the discipline. -/
theorem facadeNeverIssuesBusy : Obligations.FacadeNeverIssuesBusy := by
  refine ⟨fun s hf hr hmicro hprog => ⟨hf, by rw [hmicro]; exact hr, hprog⟩, fun s u hs h => ?_⟩
  have hat : ∀ t, facadeHost (advanceTo t (settleTie s)) := fun t => by
    obtain ⟨hf, -⟩ := id hs
    exact facadeHost_of_host hs (by simpa using hf) (by simp) (by simp [State.ready])
  obtain ⟨hl, ⟨t, -, rfl⟩ | ⟨t, -, -, -, -, hrun⟩ | ⟨t, op, -, -, hn, -, -, hrun⟩⟩ := step_cases h
  · exact facadeHost_resetStep hs t
  · exact facadeHost_tickStep (hat t) (by simpa using hl) hrun
  · exact facadeHost_hostStep (hat t) (by simpa [nextLine] using hn) hrun

end Sys2Proof.Machine
end

section
/-! What the devices on the line make of a whole sequence (rules R54, R118, R207): they see the command, they
answer the slot's first low and its release, and they see the end. Tables and latencies do not matter: what
the Bus holds is read from the record of the slot. -/

namespace Sys2Proof.Machine

/-- The pulls with which devices answer a slot, as far as it has been seen (rule R207). -/
def answers (op : BitVec 2) (devices : List Responder) (sl : Slot) : List (Nat × Nat) :=
  sl.tL.elim [] (fun t => devices.flatMap (Responder.pullsOnLow op t)) ++
    sl.tR.elim [] (fun t => devices.flatMap (Responder.pullsOnRelease op t))

/-- A sequence of the operation `op` is in flight, whose command the devices of the Bus `b` have seen. -/
structure DevicesAt (b : Bus) (op : BitVec 2) (u : State) : Prop where
  op_eq : u.op = op
  free : u.bus.free = b.free
  responders : u.bus.responders = b.responders
  pulls : u.bus.pulls = b.pulls ++ answers op b.responders u.slot
  order : u.slot.tL = none → u.slot.tR = none

/-- That sequence has ended. -/
structure DevicesEnd (b : Bus) (op : BitVec 2) (u : State) : Prop where
  free : u.bus.free = b.free
  responders : u.bus.responders = b.responders.map (Responder.onReady op u.result)
  pulls : u.bus.pulls = b.pulls ++ answers op b.responders u.slot
  past : u.cfg.level = .timed → ∃ tE, u.slot.tE = some tE ∧ tE ≤ u.now

/-! ### The samples leave the slot's times -/

section
variable (kind : SampleKind) (ts : List Nat) (s : State)

theorem noteSamples_times : (noteSamples kind ts s).slot.tL = s.slot.tL ∧
    (noteSamples kind ts s).slot.tR = s.slot.tR := by
  unfold noteSamples
  split <;> simp

theorem tookSample_times : (tookSample kind s).slot.tL = s.slot.tL ∧
    (tookSample kind s).slot.tR = s.slot.tR := by
  unfold tookSample
  split
  · exact noteSamples_times kind _ s
  · simp

end

/-! ### Each operation of a sequence in flight -/

section
variable {b : Bus} {op : BitVec 2} {s u : State}

/-- An operation that leaves OP, the Bus and the slot's times leaves the devices. -/
theorem DevicesAt.congr (hs : DevicesAt b op s) (hop : u.op = s.op) (hbus : u.bus = s.bus)
    (ht : u.slot.tL = s.slot.tL ∧ u.slot.tR = s.slot.tR) : DevicesAt b op u := by
  obtain ⟨htL, htR⟩ := ht
  refine ⟨hop.trans hs.op_eq, hbus ▸ hs.free, hbus ▸ hs.responders, ?_, ?_⟩
  · rw [hbus, hs.pulls, answers, answers, htL, htR]
  · rw [htL, htR]
    exact hs.order

/-- The devices answer a slot's first low and its release, and no other drive (rules R118, R207). -/
theorem DevicesAt.driveAt (hs : DevicesAt b op s) (t : Nat) (d : Drive) :
    DevicesAt b op (driveAt t d s) := by
  unfold Machine.driveAt noteDrive
  split
  · rename_i _ hL
    replace hL : s.slot.tL = none := hL
    have hR := hs.order hL
    refine ⟨hs.op_eq, hs.free, hs.responders, ?_, nofun⟩
    have hop : (s.setDrive .low).op = op := hs.op_eq
    simp [Bus.addPulls, answers, hs.pulls, hs.responders, hL, hR, hop]
  · exact hs.congr rfl rfl ⟨rfl, rfl⟩
  · rename_i _ hL hR
    replace hL : s.slot.tL = some _ := hL
    replace hR : s.slot.tR = none := hR
    have hop : (s.setDrive .rel).op = op := hs.op_eq
    refine ⟨hs.op_eq, hs.free, hs.responders, ?_, fun h => absurd (hL.symm.trans h) nofun⟩
    simp [Bus.addPulls, answers, hs.pulls, hs.responders, hL, hR, hop]
  · exact hs.congr rfl rfl ⟨rfl, rfl⟩

theorem DevicesAt.applyCells (hs : DevicesAt b op s) (lo hi : Nat) (es : List (Nat × CellEvent)) :
    DevicesAt b op (applyCells lo hi es s) := by
  induction es generalizing s with
  | nil => exact hs
  | cons e rest ih =>
    obtain ⟨t, e⟩ := e
    refine ih ?_
    split
    · cases e with
      | drive k => exact hs.driveAt t _
      | sample k => exact hs.congr rfl rfl ⟨rfl, rfl⟩
      | done => exact hs.congr rfl rfl ⟨rfl, rfl⟩
    · exact hs

theorem DevicesAt.advanceTo (hs : DevicesAt b op s) (t : Nat) : DevicesAt b op (advanceTo t s) := by
  cases hl : s.cfg.level with
  | untimed => rwa [advanceTo_untimed hl]
  | timed =>
    by_cases he : s.cfg.engine = .timer
    · rw [advanceTo_timer hl he]
      exact hs.congr rfl (by simp) (by simp)
    · rw [advanceTo_shift hl he]
      have hrun : DevicesAt b op (runXfer t s) := by
        unfold runXfer
        split
        · exact hs.applyCells ..
        · exact hs
      exact hrun.congr rfl rfl ⟨rfl, rfl⟩

theorem DevicesAt.atHandler (hs : DevicesAt b op s) : DevicesAt b op (atHandler s) :=
  (hs.advanceTo (due s (s.nextT + latency s))).congr (by simp [Machine.atHandler, State.op])
    (by simp [Machine.atHandler]) (by simp [Machine.atHandler])

theorem DevicesAt.perform (hs : DevicesAt b op s) (i : Instr) : DevicesAt b op (perform i s) := by
  cases i with
  | tDriveLow => exact hs.driveAt s.now .low
  | tRelease => exact hs.driveAt s.now .rel
  | tSampleSet =>
    exact hs.congr (stepOp_perform ..) (by simp [Machine.perform, performSampleSet])
      (tookSample_times .read _)
  | tSampleOr =>
    exact hs.congr (stepOp_perform ..) (by simp [Machine.perform, performSampleOr])
      (tookSample_times .presence _)
  | sCapOrLow =>
    exact hs.congr (stepOp_perform ..) (by simp [Machine.perform, captureOrLow])
      (noteSamples_times .presence _ _)
  | sCapBit =>
    exact hs.congr (stepOp_perform ..) (by simp [Machine.perform, captureBit])
      (noteSamples_times .read _ _)
  | _ => exact hs

theorem DevicesAt.advanceProg (hs : DevicesAt b op s) : DevicesAt b op (advanceProg s) :=
  hs.congr (by simp [State.op]) rfl ⟨rfl, rfl⟩

theorem DevicesAt.reloadTimer (hs : DevicesAt b op s) (d : Nat) : DevicesAt b op (reloadTimer d s) :=
  hs.congr rfl rfl ⟨rfl, rfl⟩

theorem DevicesAt.startXfer (hs : DevicesAt b op s) (p : Byte) (st : Nat) :
    DevicesAt b op (startXfer p st s) := by
  have hset : DevicesAt b op (((s.setTxd p).setXferBusy true).setXferStart
      (atLevel s.cfg.level st s.xferStart)) := hs.congr rfl rfl ⟨rfl, rfl⟩
  exact (hset.driveAt st (cellDrive p 0)).congr rfl rfl ⟨rfl, rfl⟩

/-- The devices see the end of the sequence with its RESULT (rule R207). -/
theorem DevicesAt.terminal (hs : DevicesAt b op s) (hnow : s.cfg.level = .timed → s.nextT ≤ s.now) :
    DevicesEnd b op (terminal s) := by
  have hslot : (Machine.terminal s).slot.tL = s.slot.tL ∧
      (Machine.terminal s).slot.tR = s.slot.tR := by
    unfold Machine.terminal noteReady
    dsimp only
    split <;> exact ⟨rfl, rfl⟩
  obtain ⟨htL, htR⟩ := hslot
  refine ⟨?_, ?_, ?_, fun hl => ?_⟩
  · rw [terminal_bus]; exact hs.free
  · rw [terminal_bus, Bus.mapResponders, hs.op_eq, hs.responders]
    simp [State.result]
  · rw [terminal_bus, answers, htL, htR]
    exact hs.pulls
  · rw [terminal_cfg] at hl
    exact ⟨s.nextT, by simp [Machine.terminal, noteReady, hl], by simpa using hnow hl⟩

/-- The devices while a sequence is in flight, and once it has ended. -/
def devicesSeen (b : Bus) (op : BitVec 2) (u : State) : Prop :=
  (u.ready = false ∧ DevicesAt b op u) ∨ (u.ready = true ∧ DevicesEnd b op u)

/-- The handler is not before the armed tick (rule R107). -/
theorem nextT_le_atHandler (hl : s.cfg.level = .timed) : s.nextT ≤ (atHandler s).now := by
  rw [atHandler, enterTick_now, advanceTo_now_due, due_timed _ hl]
  omega

/-- A tick goes on with the sequence, or ends it as the devices see. -/
theorem DevicesAt.tickOnce (hs : DevicesAt b op s) (hl : legalConfig s.cfg = true)
    (hr : s.ready = false) (h : tickOnce s = .next u) : devicesSeen b op u := by
  have hready : stepReady s.step = false := hr
  obtain ⟨-, rfl⟩ | ⟨c, i, table, is, -, -, htick⟩ := tickStep_cases (by simpa using hl) h
  · exact .inl ⟨by simpa [State.ready] using hready, hs.atHandler.congr rfl rfl ⟨rfl, rfl⟩⟩
  · have hperf : DevicesAt b op (Machine.advanceProg (Machine.perform i (Machine.atHandler s))) :=
      (hs.atHandler.perform i).advanceProg
    obtain ⟨-, rfl⟩ | ⟨-, -, d, rfl⟩ | ⟨-, -, c', p, -, -, rfl⟩ := htick
    · refine .inr ⟨by simp [State.ready], hperf.terminal fun hl => ?_⟩
      simpa using nextT_le_atHandler (s := s) (by simpa using hl)
    · exact .inl ⟨by simpa [State.ready] using hready, hperf.reloadTimer d⟩
    · exact .inl ⟨by simpa [State.ready] using hready, hperf.startXfer p _⟩

/-- An accepted command is seen by the devices before the line is driven (rules R101, R207). -/
theorem devicesAt_accept (w : Byte) (s : State) :
    DevicesAt (s.bus.mapResponders (Responder.onIssue (stepOp w))) (stepOp w) (accept w s) := by
  have hissued : DevicesAt (s.bus.mapResponders (Responder.onIssue (stepOp w))) (stepOp w)
      (noteIssue (stepOp w) (s.setStep (issuedStep w))) :=
    ⟨stepOp_issuedStep w, rfl, rfl, (List.append_nil _).symm, fun _ => rfl⟩
  by_cases he : s.cfg.engine = .timer
  · rw [accept_timer w he]
    exact hissued.reloadTimer _
  · rw [accept_shift w he]
    exact hissued.startXfer ..

/-- What the devices make of a whole sequence. -/
theorem devices_end {w : Byte} {n : Nat} (hs : cleanEntry s)
    (hn : stepCount s.cfg (keyOf (issuedStep w)) = some n) (h : ticks n (issue w s) = .next u) :
    DevicesEnd (s.bus.mapResponders (Responder.onIssue (stepOp w))) (stepOp w) u := by
  obtain ⟨hr, -, -, -, -, -, hl⟩ := id hs
  have hseen : ∀ k ≤ n, ∃ u, ticks k (issue w s) = .next u ∧ SequenceAt s w n k u ∧
      devicesSeen (s.bus.mapResponders (Responder.onIssue (stepOp w))) (stepOp w) u := by
    intro k hk
    induction k with
    | zero =>
      exact ⟨_, congrArg _ (issue_ready w hr), sequenceAt_accept hs hn,
        .inl ⟨by simp [State.ready], devicesAt_accept w s⟩⟩
    | succ k ih =>
      obtain ⟨u, hticks, hu, hdevices⟩ := ih (by omega)
      obtain ⟨v, htick, hv⟩ := hu.tick hl hn hk
      have hbusy : u.ready = false := by rw [hu.ready, decide_eq_false (by omega)]
      obtain ⟨-, hat⟩ | ⟨hready, -⟩ := hdevices
      · exact ⟨v, ticks_succ hticks htick, hv, hat.tickOnce (hu.cfg ▸ hl) hbusy htick⟩
      · exact absurd (hbusy.symm.trans hready) nofun
  obtain ⟨v, hticks, hv, ⟨hbusy, -⟩ | ⟨-, hend⟩⟩ := hseen n le_rfl
  · exact absurd (hbusy.symm.trans hv.ready) (by simp)
  · obtain rfl : v = u := by simpa [hticks] using h
    exact hend

end

end Sys2Proof.Machine
end

section
/-! The loop-back responder over whole sequences, and the round trips (rules R207 to R209, R263). -/

namespace Sys2Proof.Machine

/-! ### A completed sequence leaves a CleanEntry state -/

/-- READY comes with what CleanEntry asks (rules R39, R256). -/
theorem cleanEntry_end {s u : State} {w : Byte} {n : Nat} (hs : cleanEntry s)
    (hn : stepCount s.cfg (keyOf (issuedStep w)) = some n) (h : ticks n (issue w s) = .next u) :
    cleanEntry u ∧ u.cfg = s.cfg := by
  have hu := sequenceAt_end hs hn h
  obtain ⟨-, -, -, -, -, -, hl⟩ := hs
  have hr : u.ready = true := by simp [hu.ready]
  obtain ⟨ha, ht, hd, hb, -⟩ := (hu.inv hu.fault).1 hr
  exact ⟨⟨hr, ha, hd, hb, ht, hu.fault, hu.cfg ▸ hl⟩, hu.cfg⟩

/-- The clock's advance at rest moves the clock only (rules R257, R258). -/
theorem cleanEntry_advanceTo {s : State} (hs : cleanEntry s) (t : Nat) :
    cleanEntry (advanceTo t s) ∧ (advanceTo t s).bus = s.bus := by
  obtain ⟨hr, ha, hd, hb, ht, hf, hl⟩ := hs
  obtain ⟨hdrive, hbusy⟩ := advanceTo_idle t hb
  refine ⟨⟨by simpa using hr, by simpa using ha, hdrive.trans hd, hbusy, by simpa using ht,
    by simpa using hf, by simpa using hl⟩, ?_⟩
  unfold advanceTo
  split
  · rfl
  · split <;> simp [runXfer, hb]

/-- A tick does not move the clock back (rule R107). -/
theorem tickOnce_now_le {s u : State} (h : tickOnce s = .next u) : s.now ≤ u.now := by
  obtain ⟨-, hnow, -⟩ := tickStep_keeps h
  rw [hnow, advanceTo_now_due]
  exact due_le ..

theorem ticks_now_le {n : Nat} {s u : State} (h : ticks n s = .next u) : s.now ≤ u.now := by
  induction n generalizing s with
  | zero => cases h; exact le_rfl
  | succ n ih =>
    obtain ⟨v, hv, hrest⟩ := ticks_succ_next h
    exact (tickOnce_now_le hv).trans (ih hrest)

theorem issue_now (w : Byte) (s : State) : (issue w s).now = s.now := (issue_keeps w s).2.2

/-- Every sequence of the default tables drives the line low, at any latency, and not before its command
(rules R147, R181). -/
theorem default_slot_starts {s u : State} {w : Byte} {n : Nat} (hs : cleanEntry s)
    (hl : s.cfg.level = .timed) (ht : s.cfg.tables = defaultTables s.cfg.engine)
    (hn : stepCount s.cfg (keyOf (issuedStep w)) = some n) (h : ticks n (issue w s) = .next u) :
    ∃ tL, u.slot.tL = some tL ∧ s.now ≤ tL := by
  have hend {v : State} {tL : Nat} (hv : ticks n (issue w s) = .next v) (hslot : v.slot.tL = some tL)
      (hnow : s.now ≤ tL) : ∃ tL, u.slot.tL = some tL ∧ s.now ≤ tL := by
    obtain rfl : v = u := by simpa [hv] using h
    exact ⟨tL, hslot, hnow⟩
  by_cases he : s.cfg.engine = .timer
  · rw [he] at ht
    obtain ⟨-, rfl, hw⟩ | ⟨-, rfl, hw⟩ | ⟨-, rfl, hw⟩ := default_sequence_cases ht hn <;>
      rw [hw] at hend
    · obtain ⟨v, h0, _, _, _, hv, e0, -, -, -, -, -, hslot⟩ := timer_reset hs hl he ht
      exact hend hv (by rw [hslot]) (by omega)
    · obtain ⟨v, h0, _, _, hv, e0, -, -, -, -, hslot⟩ := timer_read hs hl he ht
      exact hend hv (by rw [hslot]) (by omega)
    · cases hp : w.getLsbD 4 with
      | false =>
        obtain ⟨v, h0, _, _, hv, e0, -, -, -, -, hslot⟩ := timer_write0 hs hl he ht
        rw [hp] at hend
        exact hend hv (by rw [hslot]) (by omega)
      | true =>
        obtain ⟨v, h0, _, _, hv, e0, -, -, -, -, hslot⟩ := timer_write1 hs hl he ht
        rw [hp] at hend
        exact hend hv (by rw [hslot]) (by omega)
  · replace ht := shiftTables_default ht he
    obtain ⟨-, rfl, hw⟩ | ⟨-, rfl, hw⟩ | ⟨-, rfl, hw⟩ := default_sequence_cases ht hn <;>
      rw [hw] at hend
    · obtain ⟨v, _, _, _, _, hv, -, -, -, -, -, hslot⟩ := shift_reset hs hl he ht
      exact hend hv (by rw [hslot]) le_rfl
    · obtain ⟨v, hv, -, hslot⟩ := shift_read hs hl he ht
      exact hend hv (by rw [hslot]) le_rfl
    · obtain ⟨v, hv, -, hslot⟩ := shift_write hs hl he ht (w.getLsbD 4)
      exact hend hv (by rw [hslot]) le_rfl

/-! ### LB over one sequence -/

/-- At a read LB takes the head of Q, or 1 if Q is empty (rule R207). -/
theorem onIssue_loopback (op : BitVec 2) (q : List Bool) (bit : Bool) :
    Responder.onIssue op (.loopback q bit) = .loopback (if op = opRead then q.tail else q)
      (if op = opRead then q.head?.getD true else bit) := by
  cases q <;> simp only [Responder.onIssue] <;> split <;> rfl

/-- At the end of a write LB appends its bit to Q (rule R207). -/
theorem onReady_loopback (op : BitVec 2) (result : Bool) (q : List Bool) (bit : Bool) :
    Responder.onReady op result (.loopback q bit) =
      .loopback (if op = opWrite then q ++ [result] else q) bit := by
  rw [Responder.onReady]
  split <;> rfl

/-- LB answers a slot's first low, where it sends 0 in a read slot, and nothing else (rule R207). -/
theorem answers_loopback {op : BitVec 2} {q : List Bool} {bit : Bool} {sl : Slot} {tL : Nat}
    (hL : sl.tL = some tL) : answers op [.loopback q bit] sl =
      if op = opRead ∧ bit = false then [(tL, tL + 30000)] else [] := by
  have hrelease : ∀ o : Option Nat, o.elim []
      (fun t => [Responder.loopback q bit].flatMap (Responder.pullsOnRelease op t)) = [] := by
    rintro (_ | _) <;> rfl
  rw [answers, hrelease, hL]
  simp [Responder.pullsOnLow, loopbackPull]

/-- What LB and the Bus hold after a sequence, from the start of its slot (rule R207). -/
theorem loopback_end {s u : State} {w : Byte} {n tL : Nat} {q : List Bool} {bit : Bool}
    (hs : cleanEntry s) (hn : stepCount s.cfg (keyOf (issuedStep w)) = some n)
    (hq : s.bus.responders = [.loopback q bit]) (h : ticks n (issue w s) = .next u)
    (hL : u.slot.tL = some tL) : u.bus.free = s.bus.free ∧
    (∃ bit', u.bus.responders = [.loopback (if stepOp w = opRead then q.tail
      else if stepOp w = opWrite then q ++ [w.getLsbD 4] else q) bit']) ∧
    u.bus.pulls = s.bus.pulls ++ (if stepOp w = opRead ∧ q.head? = some false
      then [(tL, tL + 30000)] else []) := by
  obtain ⟨hfree, hresp, hpulls, -⟩ := devices_end hs hn h
  have hissued : (s.bus.mapResponders (Responder.onIssue (stepOp w))).responders =
      [.loopback (if stepOp w = opRead then q.tail else q)
        (if stepOp w = opRead then q.head?.getD true else bit)] := by
    rw [Bus.mapResponders, hq, List.map_singleton, onIssue_loopback]
  rw [hissued, List.map_singleton, onReady_loopback] at hresp
  rw [hissued, answers_loopback hL] at hpulls
  refine ⟨hfree, ⟨if stepOp w = opRead then q.head?.getD true else bit, ?_⟩,
    hpulls.trans (congrArg _ (if_congr ?_ rfl rfl))⟩
  · rw [hresp]
    by_cases hw : stepOp w = opWrite
    · have hread : ¬ stepOp w = opRead := by rw [hw]; decide
      simp only [if_pos hw, if_neg hread, (sequenceAt_end hs hn h).result_write hw]
    · simp only [if_neg hw]
  · refine and_congr_right fun hread => ?_
    rw [if_pos hread]
    cases q <;> simp

/-! ### Reads and writes over LB -/

/-- More intervals pull where they hold the time. -/
theorem pull_append {b b' : Bus} {ps : List (Nat × Nat)} (hfree : b'.free = b.free)
    (hpulls : b'.pulls = b.pulls ++ ps) (t : Nat) :
    pull b' t = (pull b t || ps.any (fun p => decide (p.1 ≤ t) && decide (t < p.2))) := by
  rw [pull, pull, hfree, hpulls, List.any_append, Bool.or_right_comm]

/-- A run of sequences is its first one and the rest. -/
theorem sequencesRun_cons {n gap : Nat} {w : Byte} {commands : List (Nat × Byte)} {rs : List Bool}
    {s u v : State} (h : ticks n (issue w (advanceTo (s.now + gap) s)) = .next u)
    (hrest : sequencesRun n commands u = some (rs, v)) :
    sequencesRun n ((gap, w) :: commands) s = some (u.result :: rs, v) := by
  simp [sequencesRun, h, hrest]

/-- What the round trip asks of the configuration: the default tables in Level B within the bound of rule
R263, and `n` steps for each bit. -/
structure RoundTripConfig (cfg : Config) (n : Nat) : Prop where
  level : cfg.level = .timed
  tables : cfg.tables = defaultTables cfg.engine
  bound : cfg.lMax ≤ latencyBound cfg.engine
  write : ∀ v : Bool, stepCount cfg (keyOf (issuedStep (if v then 0x50#8 else 0x40#8))) = some n
  read : stepCount cfg (keyOf (issuedStep 0x20#8)) = some n

/-- At rest over LB, whose Q is `q`, with no pull from now on. -/
structure LoopbackAt (cfg : Config) (q : List Bool) (s : State) : Prop where
  entry : cleanEntry s
  cfg_eq : s.cfg = cfg
  queue : ∃ bit, s.bus.responders = [.loopback q bit]
  quiet : ∀ t, s.now ≤ t → pull s.bus t = false

section
variable {cfg : Config} {n : Nat} {q : List Bool} {s : State} (hc : RoundTripConfig cfg n)
include hc

/-- The Host's time between two sequences changes nothing but the clock. -/
theorem LoopbackAt.advanceTo (hs : LoopbackAt cfg q s) (gap : Nat) :
    LoopbackAt cfg q (advanceTo (s.now + gap) s) := by
  obtain ⟨hentry, hcfg, hqueue, hquiet⟩ := hs
  obtain ⟨hentry', hbus⟩ := cleanEntry_advanceTo hentry (s.now + gap)
  refine ⟨hentry', by simpa using hcfg, by rwa [hbus], fun t ht => ?_⟩
  rw [advanceTo_now_timed _ (hcfg ▸ hc.level)] at ht
  rw [hbus]
  exact hquiet t (by omega)

/-- A Write-Bit of `v` puts `v` at the end of Q. -/
theorem LoopbackAt.write (hs : LoopbackAt cfg q s) (v : Bool) :
    ∃ u, ticks n (issue (if v then 0x50#8 else 0x40#8) s) = .next u ∧ u.result = v ∧
      LoopbackAt cfg (q ++ [v]) u := by
  obtain ⟨hentry, rfl, ⟨bit, hqueue⟩, hquiet⟩ := hs
  have hbyte : ∀ v : Bool, stepOp (if v then 0x50#8 else 0x40#8) = opWrite ∧
      (if v then 0x50#8 else 0x40#8 : Byte).getLsbD 4 = v := by decide
  obtain ⟨hop, hbit⟩ := hbyte v
  obtain ⟨u, hticks, hu⟩ := ticks_sequenceAt hentry (hc.write v) n le_rfl
  obtain ⟨tL, hL, -⟩ := default_slot_starts hentry hc.level hc.tables (hc.write v) hticks
  obtain ⟨hfree, ⟨bit', hresp⟩, hpulls⟩ := loopback_end hentry (hc.write v) hqueue hticks hL
  obtain ⟨hentry', hcfg⟩ := cleanEntry_end hentry (hc.write v) hticks
  refine ⟨u, hticks, (hu.result_write hop).trans hbit, hentry', hcfg, ?_, fun t ht => ?_⟩
  · rw [hop, hbit] at hresp
    exact ⟨bit', hresp⟩
  · have hnow := ticks_now_le hticks
    rw [issue_now] at hnow
    rw [pull_append hfree hpulls, hquiet t (by omega)]
    simp [hop, opRead, opWrite]

/-- A Read-Bit answers the bit at the head of Q: LB's pull is the only one, its 30 µs hold the read sample
(rules R120, R207), and they are over at READY. -/
theorem LoopbackAt.read {v : Bool} (hs : LoopbackAt cfg (v :: q) s) :
    ∃ u, ticks n (issue 0x20#8 s) = .next u ∧ u.result = v ∧ LoopbackAt cfg q u := by
  obtain ⟨hentry, rfl, ⟨bit, hqueue⟩, hquiet⟩ := hs
  have hop : stepOp 0x20#8 = opRead := by decide
  obtain ⟨u, hticks, hanswered⟩ := answered_default hentry hc.level hc.tables hc.read hc.bound
  obtain ⟨-, hmeets, -⟩ := hanswered.meets
  obtain ⟨tL, _, tE, x, hL, -, hE, hx, hlow, hafter, hlate, -, hend⟩ :=
    hmeets (hanswered.op.trans hop)
  have hsample := hanswered.read hop x hx
  obtain ⟨tL', hL', hstart⟩ := default_slot_starts hentry hc.level hc.tables hc.read hticks
  obtain rfl : tL = tL' := Option.some.inj (hL.symm.trans hL')
  obtain ⟨hfree, hresp, hpulls⟩ := loopback_end hentry hc.read hqueue hticks hL
  obtain ⟨hentry', hcfg⟩ := cleanEntry_end hentry hc.read hticks
  obtain ⟨tE', hE', hpast⟩ := (devices_end hentry hc.read hticks).past (hcfg ▸ hc.level)
  obtain rfl : tE = tE' := Option.some.inj (hE.symm.trans hE')
  have hpull : ∀ t, s.now ≤ t → pull u.bus t = (!v && decide (tL ≤ t) && decide (t < tL + 30000)) := by
    intro t ht
    rw [pull_append hfree hpulls, hquiet t ht]
    cases v <;> simp [hop]
  refine ⟨u, hticks, ?_, hentry', hcfg, by simpa [hop] using hresp, fun t ht => ?_⟩
  · rw [hsample, hpull x (by omega), decide_eq_true (show tL ≤ x by omega),
      decide_eq_true (show x < tL + 30000 by omega)]
    simp
  · rw [hpull t (by omega), decide_eq_false (show ¬ t < tL + 30000 by omega), Bool.and_false]

/-- Reads empty Q, in order. -/
theorem LoopbackAt.reads {commands : List (Nat × Byte)} (hs : LoopbackAt cfg q s)
    (hcmd : commands.map Prod.snd = List.replicate q.length 0x20#8) :
    ∃ u, sequencesRun n commands s = some (q, u) ∧ u.ready = true := by
  induction q generalizing s commands with
  | nil =>
    obtain rfl : commands = [] := List.map_eq_nil_iff.mp hcmd
    exact ⟨s, rfl, hs.entry.1⟩
  | cons v q ih =>
    obtain ⟨⟨gap, w⟩, commands, rfl, rfl, hrest⟩ := List.map_eq_cons_iff.mp hcmd
    obtain ⟨u, hticks, rfl, hu⟩ := (hs.advanceTo hc gap).read hc
    obtain ⟨z, hrun, hready⟩ := ih hu hrest
    exact ⟨z, sequencesRun_cons hticks hrun, hready⟩

/-- Writes fill Q, and as many reads as Q then has bits answer it. -/
theorem LoopbackAt.writes_reads {vs : List Bool} {commands : List (Nat × Byte)}
    (hs : LoopbackAt cfg q s) (hcmd : commands.map Prod.snd =
      vs.map (fun v => if v then 0x50#8 else 0x40#8) ++ List.replicate (q ++ vs).length 0x20#8) :
    ∃ u, sequencesRun n commands s = some (vs ++ (q ++ vs), u) ∧ u.ready = true := by
  induction vs generalizing s q commands with
  | nil =>
    rw [List.append_nil] at hcmd ⊢
    exact hs.reads hc hcmd
  | cons v vs ih =>
    obtain ⟨⟨gap, w⟩, commands, rfl, rfl, hrest⟩ := List.map_eq_cons_iff.mp hcmd
    obtain ⟨u, hticks, rfl, hu⟩ := (hs.advanceTo hc gap).write hc v
    have hqueue : q ++ [u.result] ++ vs = q ++ u.result :: vs := by simp
    obtain ⟨z, hrun, hready⟩ := ih hu (by rwa [hqueue])
    rw [hqueue] at hrun
    exact ⟨z, sequencesRun_cons hticks hrun, hready⟩

end

/-! ### The lines of a byte -/

/-- The i-th pair of lines of `ow.rdbyte`, where the bit read in t is bit `i` of `b` (rule R204). -/
def putBit (rd : Reg) (b : Byte) (s : State) (i : Nat) : State :=
  hostLocal (.or rd rd .t) (hostLocal (.shl .t .t i) (writeReg .t (byteOfBit (b.getLsbD i)) s))

/-- `v` with bit `i` of `b` put in. -/
def withBit (b v : Byte) (i : Nat) : Byte := v ||| (byteOfBit (b.getLsbD i) <<< i)

theorem readReg_putBit {rd : Reg} (hrd : rd ≠ .t) (b : Byte) (s : State) (i : Nat) :
    readReg rd (putBit rd b s i) = withBit b (readReg rd s) i := by
  simp only [putBit, withBit, hostLocal, readReg_writeReg_self, readReg_writeReg_ne _ _ hrd]

/-- Pairs of such lines put together what they read. -/
theorem readReg_putBits {rd : Reg} (hrd : rd ≠ .t) (b : Byte) (is : List Nat) (s : State) :
    readReg rd (is.foldl (putBit rd b) s) = is.foldl (withBit b) (readReg rd s) := by
  induction is generalizing s with
  | nil => rfl
  | cons i is ih => rw [List.foldl_cons, ih, readReg_putBit hrd, List.foldl_cons]

/-- A byte is its eight bits (rule R201). -/
theorem byte_of_bits (b : Byte) : (List.range 8).foldl (withBit b) 0#8 = b := by
  revert b; decide

/-! ### O60 -/

/-- The instances of rule R263 are such configurations. -/
theorem roundTripConfig_default {cfg : Config} {e : Engine} {n bound : Nat}
    (h : (e, n, bound) ∈ [(Engine.timer, 4, 1500), (.shiftIrq, 1, 14250), (.shiftPoll, 1, 14250)])
    (hl : cfg.level = .timed) (he : cfg.engine = e) (ht : cfg.tables = defaultTables e)
    (hL : cfg.lMax ≤ bound) : RoundTripConfig cfg n := by
  have hdefault : bound = latencyBound e ∧
      (∀ v : Bool, stepCount (defaultConfig e)
        (keyOf (issuedStep (if v then 0x50#8 else 0x40#8))) = some n) ∧
      stepCount (defaultConfig e) (keyOf (issuedStep 0x20#8)) = some n := by
    simp only [List.mem_cons, List.not_mem_nil, or_false, Prod.mk.injEq] at h
    obtain ⟨rfl, rfl, rfl⟩ | ⟨rfl, rfl, rfl⟩ | ⟨rfl, rfl, rfl⟩ := h <;>
      exact ⟨rfl, by decide, by decide⟩
  obtain ⟨rfl, hwrite, hread⟩ := hdefault
  subst he
  exact ⟨hl, ht, hL, fun v => (stepCount_default ht _).trans (hwrite v),
    (stepCount_default ht _).trans hread⟩

/-- Settles O60: LB over one sequence, the writes and reads of any number of bits, and the lines of one
byte. -/
theorem loopbackRoundTrips : Obligations.LoopbackRoundTrips := by
  refine ⟨fun s q bit w n hs hl ht hq hn => ?_, fun s e n bound bit vs commands hmem hs hl he ht hL hq
    hquiet hcmd => ?_, fun s rs i => ?_, fun s rd b hrd h0 => ?_⟩
  · obtain ⟨u, hticks, -⟩ := ticks_sequenceAt hs hn n le_rfl
    obtain ⟨tL, hL, -⟩ := default_slot_starts hs hl ht hn hticks
    obtain ⟨hfree, ⟨bit', hresp⟩, hpulls⟩ := loopback_end hs hn hq hticks hL
    exact ⟨u, tL, bit', hticks, hL, hfree, hresp, hpulls⟩
  · have hrest : LoopbackAt s.cfg [] s := ⟨hs, rfl, ⟨bit, hq⟩, hquiet⟩
    exact hrest.writes_reads (roundTripConfig_default hmem hl he ht hL) hcmd
  · rw [hostLocal, lineKind, readReg_writeReg_self]
    cases (readReg rs s).getLsbD i <;> rfl
  · have hbits := readReg_putBits hrd b (List.range 8) s
    rw [h0, byte_of_bits] at hbits
    exact hbits

end Sys2Proof.Machine
end

section
/-! The presence scenarios (rules R202, R210, R211): what a RESET answers is whether a device pulls at a
sample, and what devices pull is read from the slot. -/

namespace Sys2Proof.Machine

/-- STEP at READY is its operation, RESULT, and the count of the sequence's steps (rules R21, R25). -/
theorem SequenceAt.step_eq {s u : State} {w : Byte} {n : Nat} (hu : SequenceAt s w n n u) :
    u.step = mkStep true (stepOp w) u.result (BitVec.ofNat 4 n) := by
  have hready : stepReady u.step = true := by simpa [State.ready] using hu.ready
  have hop : stepOp u.step = stepOp w := hu.op_eq
  have hprog : BitVec.ofNat 4 n = stepProg u.step := by
    rw [← hu.prog, BitVec.ofNat_toNat, BitVec.setWidth_eq]
    rfl
  rw [← hop, hprog, ← hready]
  exact (mkStep_fields u.step).symm

/-- The machine of an engine with the default tables right after reset, with the named devices on the line. -/
def lineWith (e : Engine) (devices : List Responder) : State :=
  (State.resetWith (defaultConfig e)).setBus { pulls := [], responders := devices, free := false }

theorem cleanEntry_lineWith (e : Engine) (devices : List Responder) :
    cleanEntry (lineWith e devices) := by
  have hlegal : legalConfig (defaultConfig e) = true := by cases e <;> decide
  exact ⟨stepReady_stepReset, rfl, rfl, rfl, rfl, rfl, hlegal⟩

/-- A RESET after reset: RESULT is 1 exactly where a device pulls at a presence sample, of which all come
60 µs after the slot's release or later, and one before 95 µs (rules R119, R122, R148, R182). -/
theorem reset_lineWith (e : Engine) (devices : List Responder) {n : Nat}
    (hn : stepCount (defaultConfig e) (keyOf (issuedStep 0x00#8)) = some n) :
    ∃ u tR x, ticks n (issue 0x00#8 (lineWith e devices)) = .next u ∧ u.fault = .none ∧
      u.step = mkStep true opReset (u.slot.presence.any (pull u.bus)) (BitVec.ofNat 4 n) ∧
      u.slot.tR = some tR ∧ x ∈ u.slot.presence ∧ tR + 60000 ≤ x ∧ x < tR + 95000 ∧
      u.bus.free = false ∧
      u.bus.pulls = answers opReset (devices.map (Responder.onIssue opReset)) u.slot := by
  have hs := cleanEntry_lineWith e devices
  have hw : stepOp 0x00#8 = opReset := by decide
  change stepCount (lineWith e devices).cfg (keyOf (issuedStep 0x00#8)) = some n at hn
  obtain ⟨u, hticks, hanswered⟩ := answered_default hs rfl rfl hn (Nat.zero_le _)
  have hu := sequenceAt_end hs hn hticks
  obtain ⟨hfree, -, hpulls, -⟩ := devices_end hs hn hticks
  obtain ⟨hresult, x, hx, hearly⟩ := hanswered.reset hw
  obtain ⟨hmeets, -⟩ := hanswered.meets
  obtain ⟨-, tR, -, -, hR, -, -, -, hbounds, -⟩ := hmeets (hanswered.op.trans hw)
  refine ⟨u, tR, x, hticks, hu.fault, ?_, hR, hx, (hbounds x hx).1, hearly tR hR, hfree, hpulls⟩
  rw [hu.step_eq, hw, hresult]

/-- Settles O59: the device of R211 pulls at the first sample, and with no device there is no pull. -/
theorem presenceScenarios : Obligations.PresenceScenarios := by
  intro e n present absent hmem
  have hdefault : stepCount (defaultConfig e) (keyOf (issuedStep 0x00#8)) = some n ∧
      present = mkStep true opReset true (BitVec.ofNat 4 n) ∧
      absent = mkStep true opReset false (BitVec.ofNat 4 n) := by
    simp only [List.mem_cons, List.not_mem_nil, or_false, Prod.mk.injEq] at hmem
    obtain ⟨rfl, rfl, rfl, rfl⟩ | ⟨rfl, rfl, rfl, rfl⟩ | ⟨rfl, rfl, rfl, rfl⟩ := hmem <;> decide
  obtain ⟨hn, rfl, rfl⟩ := hdefault
  constructor
  · obtain ⟨u, tR, x, hticks, hfault, hstep, hR, hx, hlo, hhi, -, hpulls⟩ :=
      reset_lineWith e [.presence 20000 140000] hn
    have hpulled : pull u.bus x = true := by
      refine (pull_eq_true_iff _ _).mpr (.inl ⟨(tR + 20000, tR + 140000), ?_, ?_⟩)
      · rw [hpulls, answers, hR]
        exact List.mem_append_right _ (List.mem_singleton.mpr rfl)
      · dsimp only
        omega
    exact ⟨u, hticks, by rw [hstep, List.any_eq_true.mpr ⟨x, hx, hpulled⟩], hfault⟩
  · obtain ⟨u, tR, x, hticks, hfault, hstep, hR, -, -, -, hfree, hpulls⟩ := reset_lineWith e [] hn
    have hquiet : ∀ t, pull u.bus t = false := by
      have hnone : u.bus.pulls = [] := by
        rw [hpulls, answers]
        cases u.slot.tL <;> cases u.slot.tR <;> rfl
      simp [pull, hnone, hfree]
    exact ⟨u, hticks, by rw [hstep, List.any_eq_false.mpr fun t _ => by simp [hquiet t]], hfault⟩

end Sys2Proof.Machine
end

section
/-! A fault state (rules R107, R224): no Sequencer and no Host step is enabled in it, and with no block
reset pending nothing else could move. -/

namespace Sys2Proof.Machine

/-- In a fault state with no block reset pending, no agent has a turn (rules R107, R224). -/
theorem nextTurn_of_fault {s : State} (hf : s.fault ≠ .none) (hr : s.inputs.resets = []) :
    nextTurn s = .quiescent := by
  simp [nextTurn, hf, resetTime, hr]

/-- Settles O40: in a fault state the next turn is nobody's, and step answers so. -/
theorem faultStateQuiescent : Obligations.FaultStateQuiescent := by
  intro s hl hf hr
  have hturn : nextTurn s = .quiescent := nextTurn_of_fault hf hr
  simp only [step, runStep, hl, if_true, hturn, turnStep]

end Sys2Proof.Machine
end

section
/-! A block reset recovers from any state (rules R224, R231, R250, R251, R253). -/

namespace Sys2Proof.Machine

/-- Where a block reset moves next, it is the step. -/
theorem step_eq_resetStep {s : State} {t : Nat} (hl : legalConfig s.cfg = true)
    (hn : nextTurn s = .reset t) : step s = .next (resetStep t s) := by
  simp only [step, runStep, hl, if_true, hn, turnStep]

/-- In a fault state a pending block reset moves at once: no agent has a step before it (rule R224). -/
theorem nextTurn_of_fault_pending {s : State} {r : Nat} {rest : List Nat} (hf : s.fault ≠ .none)
    (hr : s.inputs.resets = r :: rest) : nextTurn s = .reset (due s r) := by
  simp [nextTurn, hf, resetTime, hr, Turn.time]

/-- The state after a block reset has the values of rule R38. -/
theorem resetStep_values (t : Nat) (s : State) : let u := resetStep t s
    u.step = 0x80#8 ∧ u.ready = true ∧ u.op = 0b00#2 ∧ u.result = false ∧ u.prog = 0#4 ∧
      u.drive = .rel ∧ u.armed = false ∧ u.xferBusy = false ∧ u.trapped = false ∧ u.fault = .none :=
  blockResetValues _ _ (.tail _ (.head _))

/-- What a block reset leaves as it was: the configuration, the Host and the draws but the reset it
used, and the Bus as the clock's advance leaves it, which a fault state does not make (rule R251). -/
theorem resetStep_frame (t : Nat) (s : State) :
    (resetStep t s).cfg = s.cfg ∧ (resetStep t s).host = s.host ∧
      (resetStep t s).inputs = { s.inputs with resets := s.inputs.resets.tail } ∧
      (resetStep t s).bus = if s.fault = .none then (advanceTo t s).bus else s.bus := by
  unfold resetStep
  split <;> simp [useReset]

/-- With READY = 1 and RESULT = 0 a wait ends at its first poll, with 0 (rules R114, R253). -/
theorem exec_owWait_zero {s : State} (rd : Reg) (hr : s.ready = true) (hres : s.result = false) :
    ∃ v, exec (.owWait rd) s = .next v ∧ readReg rd v = 0#8 :=
  ⟨_, exec_owWait_ready rd hr, by rw [readReg_writeReg_self, hres]; rfl⟩

/-- Settles O11: the step is the block reset, which writes the values of rule R38 in any state; in
a fault state it is the only turn, so the second clause is the first there. -/
theorem blockResetRecovers : Obligations.BlockResetRecovers := by
  refine (and_iff_left_of_imp fun hmoves s r rest rd hl hr hf => ?_).mpr fun s t hl hn => ?_
  · obtain ⟨u, hu, hstep, hdrive, harmed, hbusy, htrapped, hfault, hcfg, hhost, hinputs, hbus, hwait⟩ :=
      hmoves s _ hl (nextTurn_of_fault_pending hf hr)
    obtain ⟨v, hv, hzero⟩ := hwait rd
    exact ⟨u, v, hu, hstep, hdrive, harmed, hbusy, htrapped, hfault, hcfg, by rw [hbus, if_neg hf], hhost,
      by rw [hinputs, hr]; rfl, hv, hzero⟩
  · obtain ⟨hstep, hready, -, hresult, -, hdrive, harmed, hbusy, htrapped, hfault⟩ :=
      resetStep_values t s
    obtain ⟨hcfg, hhost, hinputs, hbus⟩ := resetStep_frame t s
    exact ⟨_, step_eq_resetStep hl hn, hstep, hdrive, harmed, hbusy, htrapped, hfault, hcfg, hhost,
      hinputs, hbus, fun rd => exec_owWait_zero rd hready hresult⟩

end Sys2Proof.Machine
end
